-- ==== Sys2Proof/Word.lean ====
section
/-! DEFINITION. The word types of SDCA, and the values of the default numeric carrier (00_scope.md R9, R10,
R12; log 1). -/
namespace Sys2Proof

/-- A byte, 0 to 255 (R9). -/
abbrev Byte := BitVec 8

/-- A command word: exactly 64 bits, bit 63 the most significant (30_encoding.md R90). -/
abbrev CmdWord := BitVec 64

/-- The nine bytes of one burst, `d[0]` first received (20_memory.md R68; FRAME_LEN of R7). -/
abbrev Frame := Vector Byte 9

/-- The two bytes of a temperature read, `t[0]` first received (R68; TEMP_LEN of R7). -/
abbrev TempBytes := Vector Byte 2

/-- The values of the numeric carrier NUM in the spec's default instantiation `exact`: the rationals (R12,
decision D2; log 1). Any other carrier has its own type of values (Machine/Carrier.lean). -/
abbrev NumVal := Rat

/-- `num(k)`: the value of an integer in the default carrier (R12). -/
abbrev num (k : Int) : NumVal := (k : Rat)

/-- The three axes in the order X, Y, Z (AXES of R7): registers that exist once per axis. -/
@[ext]
structure Triple (α : Type) where
  x : α
  y : α
  z : α
  deriving DecidableEq, Repr

/-- The same function on each axis: the lanes are independent (40_sample_decode.md R114). -/
def Triple.map {α β : Type} (f : α → β) (t : Triple α) : Triple β :=
  ⟨f t.x, f t.y, f t.z⟩

/-- The same value on each axis. -/
def Triple.const {α : Type} (a : α) : Triple α := ⟨a, a, a⟩

/-- An answer of the sensor port: bytes of exactly the asked length, or `BusError`; there is no
short answer (20_memory.md R65, R66, decision D25). -/
inductive PortAnswer (α : Type) where
  | busError
  | bytes (a : α)
  deriving DecidableEq, Repr

/-- The same answer, its bytes seen through a function. -/
def PortAnswer.map {α β : Type} (f : α → β) : PortAnswer α → PortAnswer β
  | .busError => .busError
  | .bytes a => .bytes (f a)

end Sys2Proof
end

