-- ==== Sys2Proof/Config.lean ====
section
/-! DEFINITION. What is fixed for the machine: the constants of the source (00_scope.md R7), the default
of BUF_DEPTH (R8), and the OPEN parameters as constants without a body (R8, decisions D5, D18; log 11). -/
namespace Sys2Proof

/-- The sensor's registers, "an enumerated set of fixed byte addresses" (20_memory.md R61). -/
inductive SensorReg where
  | reset
  | powerControl
  | rangeSelect
  | status
  | temperature
  | fifoData
  deriving DecidableEq, Repr

/-- RangeSetting: the three settings the source names as examples, "±10g/±20g/±40g equivalent"
(00_scope.md R13; log 18). -/
inductive RangeSetting where
  | g10
  | g20
  | g40
  deriving DecidableEq, Repr

namespace Config

/-- FRAME_LEN (R7). -/
abbrev frameLen : Nat := 9

/-- TEMP_LEN (R7). -/
abbrev tempLen : Nat := 2

/-- SCALE_DEFAULT (R7), the source's "default 1.0". -/
def scaleDefault : Int := 1

/-- BIAS_Z (R7): subtracted from the Z mean. -/
def biasZ : Int := 10

/-- TEMP_REF (R7): the temperature at TEMP_OFFSET. -/
def tempRef : Int := 25

/-- TEMP_OFFSET (R7). -/
def tempOffset : Int := 1852

/-- TEMP_SLOPE (R7): the decimal constant −9.05, which is −181/20 exactly (41_temperature.md R142). -/
def tempSlope : Rat := -181 / 20

/-- BUS_ADDR (R7, 20_memory.md R62): the sensor's address on the bus. -/
def busAddr : Byte := 0x1D

/-- RESET_CODE (R7): written to RESET by the environment. -/
def resetCode : Byte := 0x52

/-- POWER_ON_CODE (R7): written to POWER_CONTROL by the environment. -/
def powerOnCode : Byte := 0x00

/-- SETTLE_MS (R7): the environment's settle delay. -/
def settleMs : BitVec 32 := 100

/-- The default of BUF_DEPTH, and its largest value (R8, decision D6). -/
def bufDepthDefault : Nat := 65535

/-- The open choice behind the six addresses: a permutation of the bytes, of which nothing is known. Six
pairwise distinct bytes extend to such a permutation, so it stands for every assignment that R8 and R73
allow and for no other (log 11). -/
opaque addrChoice : Equiv.Perm Byte

/-- ADDR_RESET, ADDR_POWER_CONTROL, ADDR_RANGE_SELECT, ADDR_STATUS, ADDR_TEMPERATURE and ADDR_FIFO_DATA:
OPEN, but pairwise distinct (R8, 20_memory.md R73, decision D18; log 11). The arguments of `addrChoice` only
tell the registers apart. -/
def sensorAddr : SensorReg → Byte
  | .reset => addrChoice 0
  | .powerControl => addrChoice 1
  | .rangeSelect => addrChoice 2
  | .status => addrChoice 3
  | .temperature => addrChoice 4
  | .fifoData => addrChoice 5

/-- "pairwise distinct" (R8, R73): a fact of every choice of the addresses (addrDistinct in Laws/Ops.lean).
-/
def AddrDistinct : Prop := ∀ a b : SensorReg, sensorAddr a = sensorAddr b → a = b

/-- RANGE_MASK(r): OPEN (R8, decision D18; log 11). -/
opaque rangeMask : RangeSetting → Byte

/-- DEFAULT_SAMPLE_COUNT: OPEN (R8, decision D5; log 11). -/
opaque defaultSampleCount : BitVec 16

/-- DEFAULT_INTERVAL_MS: OPEN (R8, decision D5; log 11). -/
opaque defaultIntervalMs : BitVec 32

end Config
end Sys2Proof
end

