-- ==== Sys2Proof/Machine/Carrier.lean ====
section
/-! DEFINITION. The numeric carrier NUM as an argument of the model (00_scope.md R8, R12; 93 U6), and its
default instantiation `exact` (log 1). -/
namespace Sys2Proof.Machine

/-- A numeric carrier (R12): `num` of an integer, `dec` of a decimal constant, the four operations as
functions of their operands alone, and the zero test, with what R12 asks of the zero test. `div` by a value
for which `isZero` holds is performed by no rule, so nothing is asked of it there. -/
structure Carrier (Num : Type) where
  num : Int → Num
  dec : Rat → Num
  add : Num → Num → Num
  sub : Num → Num → Num
  mul : Num → Num → Num
  div : Num → Num → Num
  isZero : Num → Bool
  num_nonzero : ∀ k : Int, k ≠ 0 → isZero (num k) = false
  slope_nonzero : isZero (dec Config.tempSlope) = false

/-- The default instantiation: the rationals, `num` and `dec` the inclusions, the four operations exact,
`is_zero(q) = (q = 0)` (R12, decision D2; log 1). -/
def Carrier.exact : Carrier NumVal where
  num k := (k : Rat)
  dec q := q
  add a b := a + b
  sub a b := a - b
  mul a b := a * b
  div a b := a / b
  isZero q := decide (q = 0)
  num_nonzero k hk := decide_eq_false (fun h => hk (by exact_mod_cast h))
  slope_nonzero := decide_eq_false (by unfold Config.tempSlope; norm_num)

end Sys2Proof.Machine
end

