-- ==== Sys2Proof/Syntax.lean ====
section
/-! DEFINITION. The commands of SDCA, one constructor per row of spec/opcode_table.json, and the
pseudo-commands of 30_encoding.md R101. -/
namespace Sys2Proof

/-- A command, the block's analogue of an instruction (30_encoding.md R94). -/
inductive Instr where
  /-- RDACC: read current acceleration (40_sample_decode.md R118). -/
  | rdacc
  /-- RDTEMP: read current temperature (41_temperature.md R140). -/
  | rdtemp
  /-- CALIB count, interval: the calibration run (42_calibration.md R150, R151). -/
  | calib (count : BitVec 16) (interval : BitVec 32)
  deriving DecidableEq, Repr

/-- What may be written in an assembler line (R100, R101): the commands, and CALIB with its operands
left out from the right. -/
inductive AsmLine where
  | rdacc
  | rdtemp
  | calib (count : BitVec 16) (interval : BitVec 32)
  | calibCount (count : BitVec 16)
  | calibDefault
  deriving DecidableEq, Repr

/-- The pseudo-commands expand with the open defaults, "applied by the host before it builds the word"
(R96, R101). -/
def AsmLine.expand : AsmLine → Instr
  | .rdacc => .rdacc
  | .rdtemp => .rdtemp
  | .calib c m => .calib c m
  | .calibCount c => .calib c Config.defaultIntervalMs
  | .calibDefault => .calib Config.defaultSampleCount Config.defaultIntervalMs

end Sys2Proof
end

