-- ==== Sys2Proof/Machine/State.lean ====
section
/-! DEFINITION. The state of SDCA (10_state.md R20 to R44), the inputs of its step held as plain data
(R43; log 2), the event history (20_memory.md R80; log 10), the reasons a step can stop, and reset. -/
namespace Sys2Proof.Machine

/-- The phases of the sequencer register PH, SDCA's analogue of a program counter (10_state.md R36). -/
inductive Phase where
  /-- No command running. -/
  | idle
  /-- RDACC: status read issued. -/
  | accSt
  /-- RDACC: burst read issued. -/
  | accFifo
  /-- RDTEMP: temperature read issued. -/
  | tmpRd
  /-- CALIB: status read of sample IDX issued. -/
  | calSt
  /-- CALIB: burst read of sample IDX issued. -/
  | calFifo
  /-- CALIB: interval delay running. -/
  | calWait
  /-- CALIB: all samples stored, means and scale to be computed. -/
  | calFin
  deriving DecidableEq, Repr

/-- The completion codes of STAT.ERR (10_state.md R28, 60_exceptions.md R183). -/
inductive ErrCode where
  | ok
  | invalidArgument
  | busError
  | calibrationError
  deriving DecidableEq, Repr

/-- The port primitives (20_memory.md R64 to R66). SDCA issues only reads; the write is the
environment's. -/
inductive PortOp where
  | write (reg : SensorReg) (value : Byte)
  | readByte (reg : SensorReg)
  | readBytes (reg : SensorReg) (n : Nat)
  deriving DecidableEq, Repr

/-- A request to an agent outside: the sensor port or the delay timer (R75, 60_exceptions.md R198). -/
inductive Request where
  | port (op : PortOp)
  | delay (ms : BitVec 32)
  deriving DecidableEq, Repr

/-- What a host read returns: the host register file has four widths (10_state.md R39). -/
inductive HostValue (Num : Type := NumVal) where
  | bits8 (v : BitVec 8)
  | bits16 (v : BitVec 16)
  | bits32 (v : BitVec 32)
  | number (v : Num)
  deriving DecidableEq, Repr

/-- One entry of the event history (20_memory.md R80): each accepted command word; each port request and
its answer; each delay request and its completion; each command completion with its code; and, the model's
own additions, the host reads and hardware resets (log 10). -/
inductive Event (Num : Type := NumVal) where
  | accepted (w : CmdWord)
  | requested (r : Request)
  | answered (op : PortOp) (a : PortAnswer (List Byte))
  | delayCompleted
  | completed (e : ErrCode)
  | hostRead (k : Nat) (v : HostValue Num)
  | hardReset
  deriving DecidableEq, Repr

/-- Which agent moves in a step (00_scope.md R15; log 3). -/
inductive Turn where
  /-- The agent SDCA is waiting for moves: the host in IDLE, the port or the timer in a waiting phase. -/
  | ready
  /-- No agent outside SDCA moves. -/
  | silent
  /-- The host reads register number `k` (10_state.md R40). -/
  | hostRead (k : Nat)
  /-- Hardware reset arrives (70_reset_and_hazards.md R210, R211). -/
  | reset
  deriving DecidableEq, Repr

/-- The inputs of the step (10_state.md R43), as plain data. Entry `k` of an answer list is the answer to
the `k`-th request of that kind that is still to be answered; an exhausted list is a request never
answered (log 2, log 4). -/
structure Env where
  /-- Whose move each coming step is; when exhausted, `ready` for ever. -/
  turns : List Turn
  /-- The command words the host will present, in order. -/
  cmds : List CmdWord
  /-- The answers to `PortReadByte(STATUS)`. -/
  statusAns : List (PortAnswer Byte)
  /-- The answers to `PortReadBytes(FIFO_DATA, 9)`. -/
  fifoAns : List (PortAnswer Frame)
  /-- The answers to `PortReadBytes(TEMPERATURE, 2)`. -/
  tempAns : List (PortAnswer TempBytes)
  /-- How many delays, from the outstanding one on, will complete. -/
  delays : Nat
  deriving DecidableEq, Repr

/-- The state of SDCA (10_state.md R20) over the values of a numeric carrier, the default one unless another
is named (00_scope.md R12; log 1), and three fields of the model's own: `bufDepth`, `env`, `trace`
(log 6, log 2, log 10). -/
structure State (Num : Type := NumVal) where
  /-- SCALE (R21). -/
  scale : Num
  /-- OFFX, OFFY, OFFZ (R22). -/
  off : Triple Num
  /-- ACCX, ACCY, ACCZ (R23). -/
  acc : Triple Num
  /-- RAWX, RAWY, RAWZ (R24). -/
  raw : Triple (BitVec 32)
  /-- SST (R25). -/
  sst : Byte
  /-- TRAW (R26). -/
  traw : BitVec 16
  /-- TEMP (R26). -/
  temp : Num
  /-- FRAME[0..8] (R27). -/
  frame : Frame
  /-- STAT.ERR (R28); STAT.BUSY is a function of `ph`. -/
  err : ErrCode
  /-- BUF[X], BUF[Y], BUF[Z]: the entries that have a value, entry 0 first (R33; log 9). -/
  buf : Triple (List Num)
  /-- PH (R36). -/
  ph : Phase
  /-- IDX (R34). -/
  idx : BitVec 16
  /-- N (R35). -/
  n : BitVec 16
  /-- MS (R35). -/
  ms : BitVec 32
  /-- The parameter BUF_DEPTH (00_scope.md R8), which no step writes (log 6). -/
  bufDepth : Nat
  /-- The inputs of the step (log 2). -/
  env : Env
  /-- The event history, newest first (20_memory.md R80; log 10). -/
  trace : List (Event Num)
  deriving DecidableEq, Repr

/-- Why a step stops with a fault. Each is raised only in states that no run from reset reaches; stopping
there is safe. -/
inductive Fault where
  /-- Raised by the means of CALIB (CAL_FIN) when an entry of BUF without a value would be read, or when
  N is zero: "a model must not give an unwritten entry the value zero or any other value" (10_state.md
  R33; 93 U11). Safe. -/
  | bufferEntryWithoutValue
  /-- Raised by the sample store of CALIB when IDX is not below N ("requires IDX < N", 42_calibration.md
  R154) or not below BUF_DEPTH (the index space of 20_memory.md R60). Safe. -/
  | sampleStoreOutOfRange
  deriving DecidableEq, Repr

/-- Why a step has no meaning. -/
inductive Refusal where
  /-- Raised by an arm of exec for a command that has no meaning yet. Safe. -/
  | notModelled (mnemonic : String)
  /-- Raised by a meaning asked for the next step of its command while PH says that another command is
  running: the case "has no step" (30_encoding.md R92; 93 U1). No step of the machine raises it, because a
  presented word stays with the host while a command runs. Safe. -/
  | heldByRunningCommand
  /-- Raised by the host's turn for a register number above 13, which names no register (10_state.md R40;
  93 U16). Safe. -/
  | hostReadNoRegister
  /-- Raised by the host's turn for a register other than STAT while BUSY = 1 (10_state.md R41; 93 U16).
  Safe. -/
  | hostReadWhileBusy
  deriving DecidableEq, Repr

/-- The outcome of a step. -/
abbrev Outcome (Num : Type := NumVal) := Host.Outcome (State Num) Fault Refusal

/-- No input of any kind: nothing has been presented and nothing will be answered. -/
def Env.none : Env :=
  { turns := [], cmds := [], statusAns := [], fifoAns := [], tempAns := [], delays := 0 }

/-- The machine right after hardware reset (10_state.md R44, 70_reset_and_hazards.md R210), over any carrier.
The model's own fields: BUF_DEPTH at its default, no inputs, an empty history (log 6, log 2, log 10,
log 13, log 17). -/
def resetOf {Num : Type} (C : Carrier Num) : State Num :=
  { scale := C.num Config.scaleDefault
    off := Triple.const (C.num 0)
    acc := Triple.const (C.num 0)
    raw := Triple.const 0
    sst := 0x00
    traw := 0x0000
    temp := C.num 0
    frame := Vector.replicate 9 0x00
    err := .ok
    buf := Triple.const []
    ph := .idle
    idx := 0
    n := 0
    ms := 0
    bufDepth := Config.bufDepthDefault
    env := Env.none
    trace := [] }

/-- The machine right after hardware reset, over the default carrier. -/
def State.reset : State := resetOf Carrier.exact

end Sys2Proof.Machine
end

