-- ==== Sys2Proof/Machine/Operands.lean ====
section
/-! DEFINITION. The operand forms of SDCA: the 20-bit field of an axis, its sign extension and register
form, the scale application (40_sample_decode.md R110 to R117), the temperature word (41_temperature.md
R141, R142), and the operand check of CALIB (30_encoding.md R92). -/
namespace Sys2Proof.Machine

variable {Num : Type}

/-- `field20(b0, b1, b2) = (b0 << 12) | (b1 << 4) | (b2 >> 4)` (R110). -/
def field20 (b0 b1 b2 : Byte) : BitVec 20 :=
  (b0.setWidth 20 <<< 12) ||| (b1.setWidth 20 <<< 4) ||| (b2.setWidth 20 >>> 4)

/-- `sext20(raw)`: if bit 19 is set `(raw & 0x7FFFF) - 0x80000`, else `raw` (R112), on mathematical
integers (R113). -/
def sext20 (raw : BitVec 20) : Int :=
  if raw.getLsbD 19 then ((raw &&& 0x7FFFF#20).toNat : Int) - 0x80000 else (raw.toNat : Int)

/-- The three fields of a frame: X from `d[0..2]`, Y from `d[3..5]`, Z from `d[6..8]` (R111). -/
def frameFields (d : Frame) : Triple (BitVec 20) :=
  ⟨field20 d[0] d[1] d[2], field20 d[3] d[4] d[5], field20 d[6] d[7] d[8]⟩

/-- `decode_frame(d)`: the triple of signed integers (R114). -/
def decodeFrame (d : Frame) : Triple Int := (frameFields d).map sext20

/-- `tc_32(s)`: the 32-bit two's-complement pattern (00_scope.md R10; R115). -/
def tc32 (s : Int) : BitVec 32 := BitVec.ofInt 32 s

/-- `scale_sample((sX, sY, sZ), S)`: one NUM multiplication per axis, the integer on the left (R116). -/
def scaleSample (C : Carrier Num) (s : Triple Int) (scale : Num) : Triple Num :=
  s.map fun k => C.mul (C.num k) scale

/-- `encode20(v, p)`, "not an operation of SDCA; it exists for tests only" (R117). -/
def encode20 (v : Int) (p : BitVec 4) : Byte × Byte × Byte :=
  let u := BitVec.ofInt 20 v
  (u.extractLsb' 12 8, u.extractLsb' 4 8, u.extractLsb' 0 4 ++ p)

/-- `temp_raw(t0, t1) = (t0 << 8) | t1`, big-endian (R141). -/
def tempRaw (t0 t1 : Byte) : BitVec 16 := (t0.setWidth 16 <<< 8) ||| t1.setWidth 16

/-- `temp_c(v) = num(25) + ((num(v) − num(1852)) / dec(−9.05))`, in that order (R142). -/
def tempC (C : Carrier Num) (v : BitVec 16) : Num :=
  C.add (C.num Config.tempRef)
    (C.div (C.sub (C.num (v.toNat : Int)) (C.num Config.tempOffset)) (C.dec Config.tempSlope))

/-- `1 <= count <= BUF_DEPTH` (R92): whether a CALIB is accepted. -/
def calibAdmissible (depth : Nat) (count : BitVec 16) : Bool :=
  decide (1 ≤ count.toNat) && decide (count.toNat ≤ depth)

end Sys2Proof.Machine
end

