-- ==== Sys2Proof/Machine/Flags.lean ====
section
/-! DEFINITION. The only flags of SDCA: STAT.BUSY, STAT.ERR and SST bit 0 (10_state.md R25, R28, R29), and
the zero test of NUM (00_scope.md R12). -/
namespace Sys2Proof.Machine

variable {Num : Type}

/-- STAT.BUSY: "1 while a command is running, that is, while PH ≠ IDLE" (R28). -/
def busy (s : State Num) : Bool := decide (s.ph ≠ .idle)

/-- The numeric codes of STAT.ERR (R28, 60_exceptions.md R183). -/
def ErrCode.bits : ErrCode → BitVec 2
  | .ok => 0
  | .invalidArgument => 1
  | .busError => 2
  | .calibrationError => 3

/-- The STAT register as the host reads it: bits 7:3 zero, 2:1 ERR, 0 BUSY (R28). -/
def statByte (s : State Num) : BitVec 8 := 0#5 ++ s.err.bits ++ BitVec.ofBool (busy s)

/-- The data-ready bit: bit 0 of a STATUS byte (DRDY_BIT of 00_scope.md R7; R25). -/
def dataReady (st : Byte) : Bool := st.getLsbD 0

/-- `is_zero` of NUM = exact: `q = 0` (00_scope.md R12). -/
def isZero (q : NumVal) : Bool := Carrier.exact.isZero q

/-- The CALIB phases, in which entries of BUF may have a value (10_state.md R33, R36). -/
def Phase.isCal : Phase → Bool
  | .calSt => true
  | .calFifo => true
  | .calWait => true
  | .calFin => true
  | .idle => false
  | .accSt => false
  | .accFifo => false
  | .tmpRd => false

end Sys2Proof.Machine
end

