-- ==== Sys2Proof/Machine/Ops.lean ====
section
/-! DEFINITION. The named operations over the state, shared by the meanings: requests and answers
(20_memory.md R65 to R76), the register writes of a sample read, the buffer store, completing a command,
raising an error (60_exceptions.md R184) and hardware reset (70_reset_and_hazards.md R210, R211). -/
namespace Sys2Proof.Machine

variable {Num : Type}

/-- Adds one entry to the event history (20_memory.md R80). -/
def record (e : Event Num) (s : State Num) : State Num := { s with trace := e :: s.trace }

/-- The outstanding request of a phase (10_state.md R36), the delay being `Delay(MS)`. -/
def Phase.request (p : Phase) (ms : BitVec 32) : Option Request :=
  match p with
  | .accSt => some (.port (.readByte .status))
  | .accFifo => some (.port (.readBytes .fifoData Config.frameLen))
  | .tmpRd => some (.port (.readBytes .temperature Config.tempLen))
  | .calSt => some (.port (.readByte .status))
  | .calFifo => some (.port (.readBytes .fifoData Config.frameLen))
  | .calWait => some (.delay ms)
  | .idle => none
  | .calFin => none

/-- The bytes that a port primitive transmits: `[addr, value]` for a write, the one-byte frame `addr` that
opens a read (20_memory.md R64 to R66). -/
def PortOp.transmits : PortOp → List Byte
  | .write r v => [Config.sensorAddr r, v]
  | .readByte r => [Config.sensorAddr r]
  | .readBytes r _ => [Config.sensorAddr r]

/-- The events of issuing the request of phase `p`. -/
def issueEvents (p : Phase) (ms : BitVec 32) : List (Event Num) :=
  (p.request ms).toList.map Event.requested

/-- `PH <- p`; "entering a phase that has an outstanding request issues that request in the same step"
(30_encoding.md R92). -/
def enter (p : Phase) (s : State Num) : State Num :=
  { s with ph := p, trace := issueEvents p s.ms ++ s.trace }

/-- The answer `a` to the status read has arrived, `rest` being the answers after it (20_memory.md R65). -/
def tookStatus (a : PortAnswer Byte) (rest : List (PortAnswer Byte)) (s : State Num) : State Num :=
  { s with
    env := { s.env with statusAns := rest }
    trace := .answered (.readByte .status) (a.map fun b => [b]) :: s.trace }

/-- The port's next answer to `PortReadByte(STATUS)`, taken by the step that waits for it; `none` while no
answer has come (20_memory.md R65; log 4). -/
def takeStatus (s : State Num) : Option (PortAnswer Byte × State Num) :=
  match s.env.statusAns with
  | [] => none
  | a :: rest => some (a, tookStatus a rest s)

/-- The answer `a` to the burst read has arrived, `rest` being the answers after it (20_memory.md R66). -/
def tookBurst (a : PortAnswer Frame) (rest : List (PortAnswer Frame)) (s : State Num) : State Num :=
  { s with
    env := { s.env with fifoAns := rest }
    trace := .answered (.readBytes .fifoData Config.frameLen) (a.map Vector.toList) :: s.trace }

/-- The port's next answer to `PortReadBytes(FIFO_DATA, 9)` (20_memory.md R66). -/
def takeBurst (s : State Num) : Option (PortAnswer Frame × State Num) :=
  match s.env.fifoAns with
  | [] => none
  | a :: rest => some (a, tookBurst a rest s)

/-- The answer `a` to the temperature read has arrived, `rest` being the answers after it
(20_memory.md R66). -/
def tookTemp (a : PortAnswer TempBytes) (rest : List (PortAnswer TempBytes)) (s : State Num) : State Num :=
  { s with
    env := { s.env with tempAns := rest }
    trace := .answered (.readBytes .temperature Config.tempLen) (a.map Vector.toList) :: s.trace }

/-- The port's next answer to `PortReadBytes(TEMPERATURE, 2)` (20_memory.md R66). -/
def takeTemp (s : State Num) : Option (PortAnswer TempBytes × State Num) :=
  match s.env.tempAns with
  | [] => none
  | a :: rest => some (a, tookTemp a rest s)

/-- The outstanding delay has completed, `k` more being to complete (60_exceptions.md R198). -/
def tookDelay (k : Nat) (s : State Num) : State Num :=
  { s with env := { s.env with delays := k }, trace := .delayCompleted :: s.trace }

/-- The timer's completion of the outstanding delay; `none` while it has not completed
(60_exceptions.md R198). -/
def takeDelay (s : State Num) : Option (State Num) :=
  match s.env.delays with
  | 0 => none
  | k + 1 => some (tookDelay k s)

/-- `SST <- st` (10_state.md R25). -/
def latchStatus (st : Byte) (s : State Num) : State Num := { s with sst := st }

/-- A gated read: RAW and ACC take the literal zero vector, FRAME is not written (40_sample_decode.md
R119). -/
def writeGated (C : Carrier Num) (s : State Num) : State Num :=
  { s with raw := Triple.const 0, acc := Triple.const (C.num 0) }

/-- A ready read: FRAME, RAW and ACC from the nine bytes and the SCALE in effect (40_sample_decode.md R114
to R116, R120). -/
def writeSample (C : Carrier Num) (d : Frame) (s : State Num) : State Num :=
  { s with
    frame := d
    raw := (decodeFrame d).map tc32
    acc := scaleSample C (decodeFrame d) s.scale }

/-- `TRAW <- v; TEMP <- temp_c(v)` (41_temperature.md R143). -/
def writeTemp (C : Carrier Num) (t : TempBytes) (s : State Num) : State Num :=
  { s with traw := tempRaw t[0] t[1], temp := tempC C (tempRaw t[0] t[1]) }

/-- Writes entry `i` of a buffer whose entries below `i` have values; the entries above have none
(10_state.md R33). -/
def storeAt (l : List Num) (i : Nat) (v : Num) : List Num := l.take i ++ [v]

/-- The writes of `store_sample()`: the triple in ACC to entry IDX of the three buffers, then
`IDX <- IDX + 1` (42_calibration.md R154). -/
def storedSample (s : State Num) : State Num :=
  { s with
    buf := ⟨storeAt s.buf.x s.idx.toNat s.acc.x, storeAt s.buf.y s.idx.toNat s.acc.y,
      storeAt s.buf.z s.idx.toNat s.acc.z⟩
    idx := s.idx + 1 }

/-- `store_sample()` requires IDX < N (42_calibration.md R154), and entry IDX to exist
(20_memory.md R60). -/
def storeSample (s : State Num) : Option (State Num) :=
  if s.idx.toNat < s.n.toNat ∧ s.idx.toNat < s.bufDepth then some (storedSample s) else none

/-- `IDX <- 0`: the buffers are discarded, every entry is without value (10_state.md R33, R34). -/
def discardBuffers (s : State Num) : State Num := { s with idx := 0, buf := Triple.const [] }

/-- The reading of entries 0 to `n − 1` of a buffer with `idx` valid entries; `none` when one of them has
no value (10_state.md R33). -/
def readEntries (l : List Num) (idx n : Nat) : Option (List Num) :=
  if n ≤ idx ∧ n ≤ l.length then some (l.take n) else none

/-- A command completes normally: `STAT.ERR <- 0; PH <- IDLE` (10_state.md R28). -/
def complete (s : State Num) : State Num :=
  { s with err := .ok, ph := .idle, trace := .completed .ok :: s.trace }

/-- `raise E`, the analogue of taking an exception (60_exceptions.md R184): `PH <- IDLE`, `STAT.ERR <- c`,
and if the command was CALIB the buffers are discarded. Nothing is saved, no mode changes, no other
register is written. For a CALIB this is `abort_calibration` (42_calibration.md R162). There is no return:
SDCA is idle again and accepts the next word (R186). -/
def raise (e : ErrCode) (s : State Num) : State Num :=
  { s with
    err := e
    ph := .idle
    idx := if s.ph.isCal then 0 else s.idx
    buf := if s.ph.isCal then Triple.const [] else s.buf
    trace := .completed e :: s.trace }

/-- The answer to the outstanding request, if any, leaves the inputs: after a reset it "is ignored and has
no step" (70_reset_and_hazards.md R211; log 5). -/
def abandonRequest (p : Phase) (e : Env) : Env :=
  match p with
  | .accSt => { e with statusAns := e.statusAns.tail }
  | .accFifo => { e with fifoAns := e.fifoAns.tail }
  | .tmpRd => { e with tempAns := e.tempAns.tail }
  | .calSt => { e with statusAns := e.statusAns.tail }
  | .calFifo => { e with fifoAns := e.fifoAns.tail }
  | .calWait => { e with delays := e.delays - 1 }
  | .idle => e
  | .calFin => e

/-- Hardware reset, in any phase: every register takes its reset value (70_reset_and_hazards.md R210,
R211). The parameter, the inputs not yet consumed and the history belong to the environment and stay. -/
def hardReset (C : Carrier Num) (s : State Num) : State Num :=
  { resetOf C with
    bufDepth := s.bufDepth
    env := abandonRequest s.ph s.env
    trace := .hardReset :: s.trace }

end Sys2Proof.Machine
end

