-- ==== Sys2Proof/Machine/SampleDecode.lean ====
section
/-! DEFINITION. The sample read that RDACC and CALIB share (42_calibration.md R153), and RDACC
(40_sample_decode.md R118 to R122). -/
namespace Sys2Proof.Machine

variable {Num : Type}

/-- What a status step of a sample read leads to (R119; 42_calibration.md R155). -/
inductive StatusStep (Num : Type) where
  /-- No answer has come. -/
  | waiting
  /-- The port answered BusError. -/
  | failed (s : State Num)
  /-- Bit 0 was clear: RAW and ACC hold the zero vector. -/
  | gated (s : State Num)
  /-- Bit 0 was set: the burst is to be read. -/
  | ready (s : State Num)
  deriving DecidableEq, Repr

/-- The status step up to the point where RDACC and CALIB part: SST takes the byte, and bit 0 alone
decides (R119; 42_calibration.md R155). -/
def statusStep (C : Carrier Num) (s : State Num) : StatusStep Num :=
  match takeStatus s with
  | none => .waiting
  | some (.busError, s1) => .failed s1
  | some (.bytes st, s1) =>
    if dataReady st then .ready (latchStatus st s1) else .gated (writeGated C (latchStatus st s1))

/-- What a burst step of a sample read leads to (R120; 42_calibration.md R156). -/
inductive BurstStep (Num : Type) where
  /-- No answer has come. -/
  | waiting
  /-- The port answered BusError. -/
  | failed (s : State Num)
  /-- FRAME, RAW and ACC hold the sample. -/
  | sampled (s : State Num)
  deriving DecidableEq, Repr

/-- The burst step up to the point where RDACC and CALIB part (R120; 42_calibration.md R156). -/
def burstStep (C : Carrier Num) (s : State Num) : BurstStep Num :=
  match takeBurst s with
  | none => .waiting
  | some (.busError, s1) => .failed s1
  | some (.bytes d, s1) => .sampled (writeSample C d s1)

/-- RDACC in phase ACC_ST (R119). -/
def rdaccStatus (C : Carrier Num) (s : State Num) : Outcome Num :=
  match statusStep C s with
  | .waiting => .next s
  | .failed s1 => .next (raise .busError s1)
  | .gated s1 => .next (complete s1)
  | .ready s1 => .next (enter .accFifo s1)

/-- RDACC in phase ACC_FIFO (R120). -/
def rdaccBurst (C : Carrier Num) (s : State Num) : Outcome Num :=
  match burstStep C s with
  | .waiting => .next s
  | .failed s1 => .next (raise .busError s1)
  | .sampled s1 => .next (complete s1)

/-- RDACC over a carrier: the step of the command that PH says is next (30_encoding.md R92, R119, R120;
log 8). -/
def rdaccOf (C : Carrier Num) (s : State Num) : Outcome Num :=
  match s.ph with
  | .idle => .next (enter .accSt s)
  | .accSt => rdaccStatus C s
  | .accFifo => rdaccBurst C s
  | .tmpRd => .refused .heldByRunningCommand
  | .calSt => .refused .heldByRunningCommand
  | .calFifo => .refused .heldByRunningCommand
  | .calWait => .refused .heldByRunningCommand
  | .calFin => .refused .heldByRunningCommand

/-- RDACC over the default carrier. -/
def execRdacc (s : State) : Outcome := rdaccOf Carrier.exact s

end Sys2Proof.Machine
end

