-- ==== Sys2Proof/Machine/Calibration.lean ====
section
/-! DEFINITION. CALIB: acceptance, the sampling loop, the means, the denominator and the new scale
(42_calibration.md R150 to R166). -/
namespace Sys2Proof.Machine

variable {Num : Type}

/-- `N <- count; MS <- interval`: the operands are latched once (30_encoding.md R93). -/
def latchOperands (count : BitVec 16) (interval : BitVec 32) (s : State Num) : State Num :=
  { s with n := count, ms := interval }

/-- The acceptance of CALIB: `N <- count; MS <- interval; IDX <- 0; PH <- CAL_ST`, or InvalidArgument when
COUNT is 0 or above BUF_DEPTH (R151; 30_encoding.md R92). -/
def calibAccept (count : BitVec 16) (interval : BitVec 32) (s : State Num) : Outcome Num :=
  if calibAdmissible s.bufDepth count then
    .next (enter .calSt (discardBuffers (latchOperands count interval s)))
  else .next (raise .invalidArgument s)

/-- A sample is stored and the interval delay is requested: "one `Delay(MS)` is requested after the store
of every sample, the last one included" (R154, R157). -/
def storeAndWait (s : State Num) : Outcome Num :=
  match storeSample s with
  | none => .fault .sampleStoreOutOfRange
  | some s1 => .next (enter .calWait s1)

/-- CALIB in phase CAL_ST (R155). -/
def calibStatus (C : Carrier Num) (s : State Num) : Outcome Num :=
  match statusStep C s with
  | .waiting => .next s
  | .failed s1 => .next (raise .busError s1)
  | .gated s1 => storeAndWait s1
  | .ready s1 => .next (enter .calFifo s1)

/-- CALIB in phase CAL_FIFO (R156). -/
def calibBurst (C : Carrier Num) (s : State Num) : Outcome Num :=
  match burstStep C s with
  | .waiting => .next s
  | .failed s1 => .next (raise .busError s1)
  | .sampled s1 => storeAndWait s1

/-- CALIB in phase CAL_WAIT (R158). -/
def calibWait (s : State Num) : Outcome Num :=
  match takeDelay s with
  | none => .next s
  | some s1 => if s1.idx = s1.n then .next (enter .calFin s1) else .next (enter .calSt s1)

/-- The sum of a run's entries: entry 0, then the others added in increasing order (R159). -/
def sumEntries (C : Carrier Num) : List Num → Option Num
  | [] => none
  | v :: rest => some (rest.foldl C.add v)

/-- `mean_a`: the sum of entries 0 to N − 1 divided by `num(N)`; `none` when one of them has no value or N
is zero (R159; log 9). -/
def calMean (C : Carrier Num) (l : List Num) (idx n : BitVec 16) : Option Num :=
  ((readEntries l idx.toNat n.toNat).bind (sumEntries C)).map fun sum => C.div sum (C.num (n.toNat : Int))

/-- `cal_means()`, in the order X, Y, Z (R159). -/
def calMeans (C : Carrier Num) (s : State Num) : Option (Triple Num) :=
  match calMean C s.buf.x s.idx s.n, calMean C s.buf.y s.idx s.n, calMean C s.buf.z s.idx s.n with
  | some mx, some my, some mz => some ⟨mx, my, mz⟩
  | _, _, _ => none

/-- `zc <- meanZ − num(10)`: the bias correction (R160). -/
def biasCorrected (C : Carrier Num) (m : Triple Num) : Num := C.sub m.z (C.num Config.biasZ)

/-- `x <- (t1 + t2) / num(2)` with `t1 = zc − meanX`, `t2 = zc − meanY` (R160). -/
def calX (C : Carrier Num) (m : Triple Num) : Num :=
  let zc := biasCorrected C m
  let t1 := C.sub zc m.x
  let t2 := C.sub zc m.y
  C.div (C.add t1 t2) (C.num 2)

/-- The writes of a successful run, all in one step: OFF and SCALE (R161). -/
def commitCalibration (C : Carrier Num) (m : Triple Num) (s : State Num) : State Num :=
  { s with off := ⟨m.x, m.y, biasCorrected C m⟩, scale := C.div (C.num 1) (calX C m) }

/-- CALIB in phase CAL_FIN, the internal step (R161). -/
def calibFinish (C : Carrier Num) (s : State Num) : Outcome Num :=
  match calMeans C s with
  | none => .fault .bufferEntryWithoutValue
  | some m =>
    if C.isZero (calX C m) then .next (raise .calibrationError s)
    else .next (complete (discardBuffers (commitCalibration C m s)))

/-- CALIB over a carrier: the step of the command that PH says is next; the operands are looked at in
acceptance only (30_encoding.md R92, R93; R155, R156, R158, R161; log 8). -/
def calibOf (C : Carrier Num) (count : BitVec 16) (interval : BitVec 32) (s : State Num) : Outcome Num :=
  match s.ph with
  | .idle => calibAccept count interval s
  | .calSt => calibStatus C s
  | .calFifo => calibBurst C s
  | .calWait => calibWait s
  | .calFin => calibFinish C s
  | .accSt => .refused .heldByRunningCommand
  | .accFifo => .refused .heldByRunningCommand
  | .tmpRd => .refused .heldByRunningCommand

/-- CALIB over the default carrier. -/
def execCalib (count : BitVec 16) (interval : BitVec 32) (s : State) : Outcome :=
  calibOf Carrier.exact count interval s

end Sys2Proof.Machine
end

