-- ==== Sys2Proof/Machine/Temperature.lean ====
section
/-! DEFINITION. RDTEMP (41_temperature.md R140 to R146). -/
namespace Sys2Proof.Machine

variable {Num : Type}

/-- RDTEMP in phase TMP_RD (R143). -/
def rdtempRead (C : Carrier Num) (s : State Num) : Outcome Num :=
  match takeTemp s with
  | none => .next s
  | some (.busError, s1) => .next (raise .busError s1)
  | some (.bytes t, s1) => .next (complete (writeTemp C t s1))

/-- RDTEMP over a carrier: the step of the command that PH says is next (30_encoding.md R92, R143; log 8). -/
def rdtempOf (C : Carrier Num) (s : State Num) : Outcome Num :=
  match s.ph with
  | .idle => .next (enter .tmpRd s)
  | .tmpRd => rdtempRead C s
  | .accSt => .refused .heldByRunningCommand
  | .accFifo => .refused .heldByRunningCommand
  | .calSt => .refused .heldByRunningCommand
  | .calFifo => .refused .heldByRunningCommand
  | .calWait => .refused .heldByRunningCommand
  | .calFin => .refused .heldByRunningCommand

/-- RDTEMP over the default carrier. -/
def execRdtemp (s : State) : Outcome := rdtempOf Carrier.exact s

end Sys2Proof.Machine
end

