-- ==== Sys2Proof/Machine/Dispatch.lean ====
section
/-! DEFINITION. exec: one arm per command (30_encoding.md R94), each one call of its meaning. -/
namespace Sys2Proof.Machine

def exec (i : Instr) (s : State) : Host.Outcome State Fault Refusal :=
  match i with
  | .rdacc => Sys2Proof.Machine.execRdacc s
  | .rdtemp => Sys2Proof.Machine.execRdtemp s
  | .calib count interval => Sys2Proof.Machine.execCalib count interval s

end Sys2Proof.Machine
end

