-- ==== Sys2Proof/WellFormed.lean ====
section
/-! DEFINITION. Which commands are admissible: the condition of 30_encoding.md R94 on the operands, for a
machine whose buffers hold `depth` entries (00_scope.md R8). -/
namespace Sys2Proof

/-- CALIB needs `1 ≤ COUNT ≤ BUF_DEPTH`; RDACC and RDTEMP have no operands (R92, R94). -/
def Instr.wellFormed (depth : Nat) : Instr → Bool
  | .rdacc => true
  | .rdtemp => true
  | .calib count _ => decide (1 ≤ count.toNat) && decide (count.toNat ≤ depth)

end Sys2Proof
end

