-- ==== Sys2Proof/Decode.lean ====
section
/-! DEFINITION. The decoder, total on every 64-bit word, and after it the encoder (30_encoding.md R90,
R92, R94, R97). COUNT's range is not a matter of the word's layout but of BUF_DEPTH; the meaning of CALIB
checks it in the same acceptance step, with the same outcome (log 7). -/
namespace Sys2Proof

/-- OPC, bits 63:56 (R90). -/
def opcOf (w : CmdWord) : BitVec 8 := w.extractLsb' 56 8

/-- RSV, bits 55:48 (R90). -/
def rsvOf (w : CmdWord) : BitVec 8 := w.extractLsb' 48 8

/-- COUNT, bits 47:32, unsigned, taken as is (R90, R95). -/
def countOf (w : CmdWord) : BitVec 16 := w.extractLsb' 32 16

/-- INTERVAL, bits 31:0, unsigned milliseconds, taken as is (R90, R95). -/
def intervalOf (w : CmdWord) : BitVec 32 := w.extractLsb' 0 32

/-- Bits 55:0, all that RDACC and RDTEMP require to be zero (R92). -/
def lowBits (w : CmdWord) : BitVec 56 := w.extractLsb' 0 56

/-- Why a word is no command (R97). -/
inductive RejectReason where
  /-- OPC is 0x00 or at least 0x04. -/
  | noSuchOpcode
  /-- RSV is not zero. -/
  | reservedBitsSet
  /-- RDACC or RDTEMP with COUNT or INTERVAL not zero. -/
  | unusedOperandSet
  deriving DecidableEq, Repr

/-- What the decoder answers. -/
inductive Decoded where
  | command (i : Instr)
  | illegal (r : RejectReason)
  deriving DecidableEq, Repr

/-- RDACC and RDTEMP: every bit below OPC is zero (R94). -/
def decodeBare (w : CmdWord) (i : Instr) : Decoded :=
  if lowBits w = 0 then .command i
  else if rsvOf w = 0 then .illegal .unusedOperandSet
  else .illegal .reservedBitsSet

/-- The opcode map over all 256 values of OPC (R94, R97). -/
def decode (w : CmdWord) : Decoded :=
  if opcOf w = 0x01 then decodeBare w .rdacc
  else if opcOf w = 0x02 then decodeBare w .rdtemp
  else if opcOf w = 0x03 then
    if rsvOf w = 0 then .command (.calib (countOf w) (intervalOf w))
    else .illegal .reservedBitsSet
  else .illegal .noSuchOpcode

/-- The word of a command: OPC, RSV = 0, COUNT, INTERVAL, most significant first (R90, R94). -/
def encode : Instr → CmdWord
  | .rdacc => 0x01#8 ++ 0#8 ++ 0#16 ++ 0#32
  | .rdtemp => 0x02#8 ++ 0#8 ++ 0#16 ++ 0#32
  | .calib count interval => 0x03#8 ++ 0#8 ++ count ++ interval

/-- A table word as a command word: the low `nbits` bits of `w`, the rest zero. -/
def tableWord (nbits w : Nat) : CmdWord := BitVec.ofNat 64 (w % 2 ^ nbits)

/-- The command the decoder reads from a word numbered as spec/opcode_table.json numbers it: bit 0 the
least significant bit of the one 64-bit word (R90). -/
def decodeTableWord (nbits w : Nat) : Option Instr :=
  match decode (tableWord nbits w) with
  | .command i => some i
  | .illegal _ => none

end Sys2Proof
end

