-- ==== Sys2Proof/Machine/HostPort.lean ====
section
/-! DEFINITION. The host's side: the register file it reads (10_state.md R39 to R41), the presentation of
command words (30_encoding.md R92), and which agent moves next (00_scope.md R15; log 3). -/
namespace Sys2Proof.Machine

variable {Num : Type}

/-- The host register file (R39): `none` for a number that names no register. -/
def hostRegister (k : Nat) (s : State Num) : Option (HostValue Num) :=
  match k with
  | 0 => some (.bits8 (statByte s))
  | 1 => some (.bits8 s.sst)
  | 2 => some (.bits32 s.raw.x)
  | 3 => some (.bits32 s.raw.y)
  | 4 => some (.bits32 s.raw.z)
  | 5 => some (.number s.acc.x)
  | 6 => some (.number s.acc.y)
  | 7 => some (.number s.acc.z)
  | 8 => some (.number s.scale)
  | 9 => some (.number s.off.x)
  | 10 => some (.number s.off.y)
  | 11 => some (.number s.off.z)
  | 12 => some (.number s.temp)
  | 13 => some (.bits16 s.traw)
  | _ => none

/-- `HostRead(k)` in the host's turn (R40, R41): it changes no register; the value read is recorded in the
history. A number above 13 names no register; while BUSY = 1 only STAT is defined (log 12). -/
def hostRead (k : Nat) (s : State Num) : Outcome Num :=
  match hostRegister k s with
  | none => .refused .hostReadNoRegister
  | some v =>
    if busy s && decide (k ≠ 0) then .refused .hostReadWhileBusy
    else .next (record (.hostRead k v) s)

/-- The state once a turn has been taken, `rest` being the turns after it (log 3). -/
def tookTurn (rest : List Turn) (s : State Num) : State Num := { s with env := { s.env with turns := rest } }

/-- Whose move it is, taken off the list of turns; an exhausted list stands for `ready` (log 3). -/
def takeTurn (s : State Num) : Turn × State Num :=
  match s.env.turns with
  | [] => (.ready, s)
  | t :: rest => (t, tookTurn rest s)

/-- The word `w` has been accepted, `rest` being the words still waiting at the host (R92, R80). -/
def tookCommand (w : CmdWord) (rest : List CmdWord) (s : State Num) : State Num :=
  { s with env := { s.env with cmds := rest }, trace := .accepted w :: s.trace }

/-- The command word the host presents, taken and recorded as accepted; only IDLE takes one (R92, R80). -/
def takeCommand (s : State Num) : Option (CmdWord × State Num) :=
  match s.env.cmds with
  | [] => none
  | w :: rest => some (w, tookCommand w rest s)

/-- The command that is running, read off PH; the operands of a CALIB are those latched in N and MS
(10_state.md R35, R36). -/
def runningCommand (s : State Num) : Option Instr :=
  match s.ph with
  | .idle => none
  | .accSt => some .rdacc
  | .accFifo => some .rdacc
  | .tmpRd => some .rdtemp
  | .calSt => some (.calib s.n s.ms)
  | .calFifo => some (.calib s.n s.ms)
  | .calWait => some (.calib s.n s.ms)
  | .calFin => some (.calib s.n s.ms)

/-- An illegal word "is accepted and completes in the same step with STAT.ERR = 1" (30_encoding.md R97). -/
def acceptIllegal (s : State Num) : Outcome Num := .next (raise .invalidArgument s)

/-- Whether the sequencer moves although no agent outside does: only CAL_FIN, "internal and happens without
any input" (42_calibration.md R161; log 15). -/
def movesAlone (s : State Num) : Bool := decide (s.ph = .calFin)

/-- Puts the word `w` where the next step accepts it: SDCA idle, the host's turn, the word presented first
(log 13). -/
def presentWord (w : CmdWord) (s : State Num) : State Num :=
  { s with
    ph := .idle
    env := { s.env with turns := .ready :: s.env.turns, cmds := w :: s.env.cmds } }

end Sys2Proof.Machine
end

