-- ==== Sys2Proof/Machine/Sequencer.lean ====
section
/-! DEFINITION. The sequencer, written once over a numeric carrier and the meanings of the commands over it
(00_scope.md R3, R12, R15; 60_exceptions.md R187): acceptance, the running command, one step. -/
namespace Sys2Proof.Machine

variable {Num : Type}

/-- The meanings of the commands over a carrier: exec with NUM as an argument (R12). -/
def execOf (C : Carrier Num) (i : Instr) (s : State Num) : Outcome Num :=
  match i with
  | .rdacc => rdaccOf C s
  | .rdtemp => rdtempOf C s
  | .calib count interval => calibOf C count interval s

/-- The acceptance of a command word (30_encoding.md R92): the word is decoded and the command's acceptance
step runs, or the word is illegal; with no word presented SDCA waits in IDLE (70_reset_and_hazards.md
R212). -/
def accept (run : Instr → State Num → Outcome Num) (s : State Num) : Outcome Num :=
  match takeCommand s with
  | none => .next s
  | some (w, s1) =>
    match decode w with
    | .command i => run i s1
    | .illegal _ => acceptIllegal s1

/-- The sequencer's move: the running command's next step, or acceptance when none is running (R36). -/
def advance (run : Instr → State Num → Outcome Num) (s : State Num) : Outcome Num :=
  match runningCommand s with
  | some i => run i s
  | none => accept run s

/-- One step over a carrier and the meanings `run` of the commands over it (R3): the agent whose turn it is
moves. -/
def stepWith (C : Carrier Num) (run : Instr → State Num → Outcome Num) (s : State Num) : Outcome Num :=
  match takeTurn s with
  | (.ready, s1) => advance run s1
  | (.silent, s1) => if movesAlone s1 then advance run s1 else .next s1
  | (.hostRead k, s1) => hostRead k s1
  | (.reset, s1) => .next (hardReset C s1)

end Sys2Proof.Machine
end

