-- ==== Sys2Proof/Machine/Step.lean ====
section
/-! DEFINITION. One step of SDCA: one cause, one effect (00_scope.md R3; 60_exceptions.md R187). -/
namespace Sys2Proof.Machine

/-- One step of SDCA over any numeric carrier (00_scope.md R8, R12; log 1). -/
def stepOf {Num : Type} (C : Carrier Num) (s : State Num) : Outcome Num := stepWith C (execOf C) s

/-- One step of the machine (R3): SDCA over the default carrier. -/
def step (s : State) : Outcome := stepWith Carrier.exact exec s

/-- The state `s` with a table word presented so that the very next step accepts it (log 13). -/
def State.withFetchWord (s : State) (nbits w : Nat) : State := presentWord (tableWord nbits w) s

end Sys2Proof.Machine
end

