-- ==== Sys2Proof/Machine/Boot.lean ====
section
/-! DEFINITION. The environment's Sensor State Machine as functions (70_reset_and_hazards.md R216 to R220;
log 18). It is no part of SDCA (00_scope.md R6): nothing in State or in the step depends on this file. -/
namespace Sys2Proof.Machine

/-- The states of the Sensor State Machine (R216). -/
inductive SensorState where
  | uninitialized
  | resetting
  | configuring
  | poweredOn
  deriving DecidableEq, Repr

/-- The Configure step as a function of the RANGE_SELECT value: bitwise OR, never a full overwrite
(R218). -/
def rangeConfigure (r mask : Byte) : Byte := r ||| mask

/-- What the port answers to the four operations of the boot: whether each write succeeds, and the value
of RANGE_SELECT. -/
structure BootAnswers where
  resetWrite : Bool
  rangeRead : PortAnswer Byte
  rangeWrite : Bool
  powerWrite : Bool
  deriving DecidableEq, Repr

/-- How a construction ends: the requests made, in order; the state reached, or the one a failing operation
was in; `ok` or the error that propagates to the constructor's caller. -/
structure BootResult where
  requests : List Request
  state : SensorState
  err : ErrCode
  deriving DecidableEq, Repr

/-- The requests of step 1, Reset (R217). -/
def bootReset : List Request :=
  [.port (.write .reset Config.resetCode), .delay Config.settleMs]

/-- The write of step 2, Configure, after RANGE_SELECT has answered `r` (R218). -/
def bootConfigure (range : RangeSetting) (r : Byte) : Request :=
  .port (.write .rangeSelect (rangeConfigure r (Config.rangeMask range)))

/-- The requests of step 3, Power-On (R219). -/
def bootPowerOn : List Request :=
  [.port (.write .powerControl Config.powerOnCode), .delay Config.settleMs]

/-- "construct-with-handle-and-range": Reset, Configure, Power-On in that order, each port operation
completed before the next; an absent handle fails with InvalidArgument; a failing port operation
propagates as BusError at once (R216 to R220; 60_exceptions.md R180, R181).

The state in which a failure is reported is the model's (log 18). DEDUCED from R216's names: `uninitialized`
for an absent handle, `resetting` for the write of step 1, `configuring` for the read and the write of step 2.
DESIGN CHOICE: the spec names no state for step 3, so which state holds while the Power-On write is under
way is left open by R216; the model stays in `configuring` until step 3 has ended, and a failing
POWER_CONTROL write is reported there. -/
def construct (handle : Bool) (range : RangeSetting) (a : BootAnswers) : BootResult :=
  if handle = false then ⟨[], .uninitialized, .invalidArgument⟩
  else if a.resetWrite = false then ⟨bootReset.take 1, .resetting, .busError⟩
  else
    match a.rangeRead with
    | .busError => ⟨bootReset ++ [.port (.readByte .rangeSelect)], .configuring, .busError⟩
    | .bytes r =>
      let soFar := bootReset ++ [.port (.readByte .rangeSelect), bootConfigure range r]
      if a.rangeWrite = false then ⟨soFar, .configuring, .busError⟩
      else if a.powerWrite = false then ⟨soFar ++ bootPowerOn.take 1, .configuring, .busError⟩
      else ⟨soFar ++ bootPowerOn, .poweredOn, .ok⟩

end Sys2Proof.Machine
end

