-- ==== Sys2Proof/Safety.lean ====
section
/-! DEFINITION. What counts as a safe state and a safe run of SDCA: the phase graph (10_state.md R37), the
canonical form of the calibration buffers (R33, R34), and the invariant of every reachable state. -/
namespace Sys2Proof.Machine

variable {Num : Type}

/-- The transitions of the phase graph, "the complete set" of 10_state.md R37 (IDLE → IDLE is a command
refused at acceptance). -/
def phaseEdge : Phase → Phase → Bool
  | .idle, p => decide (p = .accSt ∨ p = .tmpRd ∨ p = .calSt ∨ p = .idle)
  | .accSt, p => decide (p = .accFifo ∨ p = .idle)
  | .accFifo, p => decide (p = .idle)
  | .tmpRd, p => decide (p = .idle)
  | .calSt, p => decide (p = .calFifo ∨ p = .calWait ∨ p = .idle)
  | .calFifo, p => decide (p = .calWait ∨ p = .idle)
  | .calWait, p => decide (p = .calSt ∨ p = .calFin)
  | .calFin, p => decide (p = .idle)

/-- The canonical form of the calibration buffers, SDCA's only addressed storage: each axis lists exactly
its IDX valid entries (R33, R34). -/
def buffersWf (b : Triple (List Num)) (idx : BitVec 16) : Bool :=
  decide (b.x.length = idx.toNat ∧ b.y.length = idx.toNat ∧ b.z.length = idx.toNat)

/-- Where IDX stands in each phase (R34; 42_calibration.md R154 to R161). -/
def idxFits (s : State Num) : Bool :=
  match s.ph with
  | .idle => decide (s.idx.toNat = 0)
  | .accSt => decide (s.idx.toNat = 0)
  | .accFifo => decide (s.idx.toNat = 0)
  | .tmpRd => decide (s.idx.toNat = 0)
  | .calSt => decide (s.idx.toNat < s.n.toNat)
  | .calFifo => decide (s.idx.toNat < s.n.toNat)
  | .calWait => decide (1 ≤ s.idx.toNat ∧ s.idx.toNat ≤ s.n.toNat)
  | .calFin => decide (s.idx.toNat = s.n.toNat)

/-- A RAW register holds a sign-extended 20-bit field: bits 31:20 all equal bit 19 (R24). -/
def rawSigned (r : BitVec 32) : Prop := r = (r.extractLsb' 0 20).signExtend 32

/-- The request that a history, newest event first, leaves unanswered (20_memory.md R75, R76). -/
def openRequest : List (Event Num) → Option Request
  | [] => none
  | .requested r :: _ => some r
  | .answered _ _ :: _ => none
  | .delayCompleted :: _ => none
  | .completed _ :: _ => none
  | .hardReset :: _ => none
  | .accepted _ :: es => openRequest es
  | .hostRead _ _ :: es => openRequest es

/-- The invariant of SDCA over any carrier: it holds at reset and every step keeps it. -/
structure RunInv (s : State Num) : Prop where
  /-- BUF_DEPTH is in its range (00_scope.md R8). -/
  depth : 1 ≤ s.bufDepth ∧ s.bufDepth ≤ 65535
  /-- The buffers are in canonical form. -/
  buffers : buffersWf s.buf s.idx = true
  /-- IDX stands where the phase says. -/
  idx : idxFits s = true
  /-- A running CALIB has an admissible count (30_encoding.md R92). -/
  run : s.ph.isCal = true → 1 ≤ s.n.toNat ∧ s.n.toNat ≤ s.bufDepth
  /-- The RAW registers are sign-extended (R24). -/
  raw : rawSigned s.raw.x ∧ rawSigned s.raw.y ∧ rawSigned s.raw.z
  /-- The history leaves open exactly the request of the phase (R36; 20_memory.md R75). -/
  request : openRequest s.trace = s.ph.request s.ms

/-- The invariant of SDCA over the default carrier: it holds at reset and every step keeps it. -/
structure Inv (s : State) : Prop extends RunInv s where
  /-- ACC is RAW times one scale (R30). -/
  reading : ∃ scale : NumVal, s.acc = scaleSample Carrier.exact (s.raw.map BitVec.toInt) scale
  /-- SCALE is never zero (70_reset_and_hazards.md R230). -/
  scale : s.scale ≠ 0

/-- A step that stops the machine with a fault. -/
def faults (o : Outcome Num) : Prop := ∃ f, o = .fault f

/-- A safe run of `k` steps: no step of it faults. -/
def SafeRun (k : Nat) (s : State) : Prop := ¬ faults (Sys2Proof.core.run k s)

end Sys2Proof.Machine
end

