-- ==== Sys2Proof/Certificates/Slice0/Obligations.lean ====
section
/-! DEFINITION. The statements for the provers, each a Prop with the rule of spec/ it formalises. Where one
writes a next state out in full it writes its `trace` and `env` too: the history is 20_memory.md R80's in the
model's form (log 10), and the inputs are 10_state.md R43's as plain data (log 2). -/

namespace Sys2Proof.Machine

/-! ### The words the statements use -/

/-- The next turn is the one SDCA waits for, and `ts` are the turns after it; an exhausted list stands for
such a turn (log 3). -/
def offers (s : State) (ts : List Turn) : Prop :=
  s.env.turns = .ready :: ts ∨ (s.env.turns = [] ∧ ts = [])

/-- `s` with other command words waiting at the host. -/
def withCmds (ws : List CmdWord) (s : State) : State := { s with env := { s.env with cmds := ws } }

/-- An outcome with its next state, if it has one, seen through `f`. -/
def mapNext (f : State → State) : Outcome → Outcome
  | .next t => .next (f t)
  | .fault r => .fault r
  | .refused r => .refused r

/-- `s` after an illegal word has completed (30_encoding.md R97): ERR is 1 and no other register has
changed. -/
def refusedWord (s : State) : State :=
  { s with err := .invalidArgument, trace := .completed .invalidArgument :: s.trace }

/-- The table of 10_state.md R39, number 0 first. -/
def hostTable (s : State) : List HostValue :=
  [.bits8 (statByte s), .bits8 s.sst, .bits32 s.raw.x, .bits32 s.raw.y, .bits32 s.raw.z, .number s.acc.x,
    .number s.acc.y, .number s.acc.z, .number s.scale, .number s.off.x, .number s.off.y, .number s.off.z,
    .number s.temp, .bits16 s.traw]

/-- The three patterns of 30_encoding.md R94 and nothing else. -/
def legalWord (depth : Nat) (w : CmdWord) : Prop :=
  w = 0x0100000000000000#64 ∨ w = 0x0200000000000000#64 ∨
    (w.extractLsb' 48 16 = 0x0300#16 ∧ 1 ≤ (w.extractLsb' 32 16).toNat ∧
      (w.extractLsb' 32 16).toNat ≤ depth)

/-- The phases that wait for the port or the timer and to which no answer will come
(60_exceptions.md R195). -/
def unanswered (s : State) : Prop :=
  (s.ph = .accSt ∧ s.env.statusAns = []) ∨ (s.ph = .accFifo ∧ s.env.fifoAns = []) ∨
    (s.ph = .tmpRd ∧ s.env.tempAns = []) ∨ (s.ph = .calSt ∧ s.env.statusAns = []) ∨
    (s.ph = .calFifo ∧ s.env.fifoAns = []) ∨ (s.ph = .calWait ∧ s.env.delays = 0)

/-- Two frames that differ in padding nibbles at most (20_memory.md R69). -/
def samePayload (d e : Frame) : Prop :=
  d[0] = e[0] ∧ d[1] = e[1] ∧ d[2].extractLsb' 4 4 = e[2].extractLsb' 4 4 ∧
    d[3] = e[3] ∧ d[4] = e[4] ∧ d[5].extractLsb' 4 4 = e[5].extractLsb' 4 4 ∧
    d[6] = e[6] ∧ d[7] = e[7] ∧ d[8].extractLsb' 4 4 = e[8].extractLsb' 4 4

/-- What a sample of CALIB needs of the state to be stored: the buffers are in canonical form, and entry
IDX belongs to the run and to the buffers (42_calibration.md R154). -/
def canStore {Num : Type} (s : State Num) : Prop :=
  buffersWf s.buf s.idx = true ∧ s.idx.toNat < s.n.toNat ∧ s.n.toNat ≤ s.bufDepth

/-- One sample of a calibration run without error: a status byte whose bit 0 is clear, or one whose bit 0
is set and the burst that follows (42_calibration.md R163). -/
inductive CalibAnswer where
  | gated (st : Byte)
  | sampled (st : Byte) (d : Frame)
  deriving DecidableEq, Repr

/-- The status byte is of the kind the sample says. -/
def CalibAnswer.fits : CalibAnswer → Bool
  | .gated st => !st.getLsbD 0
  | .sampled st _ => st.getLsbD 0

/-- The answer to the sample's status read. -/
def CalibAnswer.status : CalibAnswer → PortAnswer Byte
  | .gated st => .bytes st
  | .sampled st _ => .bytes st

/-- The answers to the sample's burst read, if it makes one. -/
def CalibAnswer.bursts : CalibAnswer → List (PortAnswer Frame)
  | .gated _ => []
  | .sampled _ d => [.bytes d]

/-- The sample's value `a_i` under the SCALE in effect (R163). -/
def CalibAnswer.value (scale : NumVal) : CalibAnswer → Triple NumVal
  | .gated _ => ⟨0, 0, 0⟩
  | .sampled _ d => scaleSample .exact (decodeFrame d) scale

/-- The sample's port requests. -/
def CalibAnswer.requests : CalibAnswer → Nat
  | .gated _ => 1
  | .sampled _ _ => 2

/-- The port requests of a list of samples. -/
def requestsOf (as : List CalibAnswer) : Nat := (as.map CalibAnswer.requests).sum

/-- `mean_a = (Σ_i a_i[a]) / N` (R163). -/
def runMean (scale : NumVal) (as : List CalibAnswer) (axis : Triple NumVal → NumVal) : NumVal :=
  (as.map fun a => axis (a.value scale)).sum / (as.length : NumVal)

/-- `x = ((meanZ − 10 − meanX) + (meanZ − 10 − meanY)) / 2` (R163). -/
def runX (scale : NumVal) (as : List CalibAnswer) : NumVal :=
  ((runMean scale as Triple.z - 10 - runMean scale as Triple.x) +
    (runMean scale as Triple.z - 10 - runMean scale as Triple.y)) / 2

/-- How many port requests a history holds. -/
def portRequests : List Event → Nat
  | [] => 0
  | .requested (.port _) :: es => portRequests es + 1
  | _ :: es => portRequests es

/-- How many delay requests a history holds. -/
def delayRequests : List Event → Nat
  | [] => 0
  | .requested (.delay _) :: es => delayRequests es + 1
  | _ :: es => delayRequests es

/-- A state in IDLE, without other agents' turns, at which the host presents `CALIB c, m`, and at which the
port answers the samples `as` first and every delay of theirs completes; `r1`, `r2` and `j` are the answers
and completions left after them. -/
structure CalibStart (s : State) (c : BitVec 16) (m : BitVec 32) (ws : List CmdWord)
    (as : List CalibAnswer) (r1 : List (PortAnswer Byte)) (r2 : List (PortAnswer Frame)) (j : Nat) :
    Prop where
  idle : s.ph = .idle
  turns : s.env.turns = []
  cmds : s.env.cmds = encode (.calib c m) :: ws
  count : 1 ≤ c.toNat ∧ c.toNat ≤ s.bufDepth
  fits : ∀ a ∈ as, a.fits = true
  statuses : s.env.statusAns = as.map CalibAnswer.status ++ r1
  bursts : s.env.fifoAns = as.flatMap CalibAnswer.bursts ++ r2
  delays : s.env.delays = as.length + j

end Sys2Proof.Machine

open Sys2Proof Sys2Proof.Machine

/-! ### Reset and the host's side -/

/-- 10_state.md section 10 (R44): the reset state, register by register. The last clause, that the reset state
stays as it is, rests on the model's own field env being empty at reset and on an input that does not come
leaving the state alone: the model's choices (log 17, log 4). -/
def Obligations.ResetStateValues : Prop :=
  State.reset.scale = num 1 ∧ State.reset.off = ⟨num 0, num 0, num 0⟩ ∧
  State.reset.acc = ⟨num 0, num 0, num 0⟩ ∧ State.reset.raw = ⟨0, 0, 0⟩ ∧ State.reset.sst = 0x00 ∧
  State.reset.traw = 0x0000 ∧ State.reset.temp = num 0 ∧ (∀ i : Fin 9, State.reset.frame[i] = 0x00) ∧
  statByte State.reset = 0x00 ∧ State.reset.err = .ok ∧ State.reset.ph = .idle ∧ State.reset.idx = 0 ∧
  State.reset.n = 0 ∧ State.reset.ms = 0 ∧ State.reset.buf = ⟨[], [], []⟩ ∧
  step State.reset = .next State.reset

/-- 70_reset_and_hazards.md section 1 (R210): hardware reset, in whatever phase it arrives, puts every
register at its reset value. That the parameter, the words the host still holds and the turns to come stay
is the model's choice (log 6, log 17, log 3). -/
def Obligations.HardResetRestoresResetValues : Prop :=
  ∀ (s : State) (ts : List Turn), s.env.turns = .reset :: ts →
    ∃ t, step s = .next t ∧ t.scale = num 1 ∧ t.off = ⟨num 0, num 0, num 0⟩ ∧
      t.acc = ⟨num 0, num 0, num 0⟩ ∧ t.raw = ⟨0, 0, 0⟩ ∧ t.sst = 0x00 ∧ t.traw = 0x0000 ∧
      t.temp = num 0 ∧ t.frame = Vector.replicate 9 0x00 ∧ statByte t = 0x00 ∧ t.ph = .idle ∧
      t.idx = 0 ∧ t.n = 0 ∧ t.ms = 0 ∧ t.buf = ⟨[], [], []⟩ ∧
      t.bufDepth = s.bufDepth ∧ t.env.cmds = s.env.cmds ∧ t.env.turns = ts

/-- 70_reset_and_hazards.md section 1 (R211): what the port would have answered to the request that a
reset abandons has no influence on anything after it. That the answer leaves the inputs at the reset is the
model's choice (log 5). -/
def Obligations.AbandonedAnswerIsIgnored : Prop :=
  ∀ (s : State) (ts : List Turn), s.env.turns = .reset :: ts →
    (∀ a b rest, s.ph = .accSt ∨ s.ph = .calSt →
      step { s with env := { s.env with statusAns := a :: rest } } =
        step { s with env := { s.env with statusAns := b :: rest } }) ∧
    (∀ a b rest, s.ph = .accFifo ∨ s.ph = .calFifo →
      step { s with env := { s.env with fifoAns := a :: rest } } =
        step { s with env := { s.env with fifoAns := b :: rest } }) ∧
    (∀ a b rest, s.ph = .tmpRd →
      step { s with env := { s.env with tempAns := a :: rest } } =
        step { s with env := { s.env with tempAns := b :: rest } })

/-- 10_state.md section 5 (R28): bit 0 of STAT is BUSY, a function of PH; bits 2:1 are the completion code;
bits 7:3 read as 0. -/
def Obligations.StatRegisterLayout : Prop :=
  ∀ s : State,
    ((statByte s).getLsbD 0 = true ↔ s.ph ≠ .idle) ∧
    (s.err = .ok → (statByte s).extractLsb' 1 2 = 0) ∧
    (s.err = .invalidArgument → (statByte s).extractLsb' 1 2 = 1) ∧
    (s.err = .busError → (statByte s).extractLsb' 1 2 = 2) ∧
    (s.err = .calibrationError → (statByte s).extractLsb' 1 2 = 3) ∧
    (statByte s).extractLsb' 3 5 = 0

/-- 10_state.md section 5 (R28): ERR is written in the step in which a command completes, which leaves PH
at IDLE, and the code written is that completion's; hardware reset apart, nothing else writes it. -/
def Obligations.ErrChangesOnlyWhenACommandEnds : Prop :=
  ∀ s t : State, step s = .next t → s.env.turns.head? ≠ some .reset →
    (∃ e es, t.trace = .completed e :: (es ++ s.trace) ∧ t.err = e ∧ t.ph = .idle) ∨
      (t.err = s.err ∧ (t.ph = .idle → s.ph = .idle))

/-- R40: with no command running, `HostRead(k)` for k in 0 to 13 returns the register of the table of R39
and changes nothing (the history records the read, log 10); any other k is refused. -/
def Obligations.HostReadReturnsTheRegister : Prop :=
  ∀ (s : State) (k : Nat) (ts : List Turn), s.env.turns = .hostRead k :: ts →
    (∀ v, s.ph = .idle → (hostTable s)[k]? = some v →
      step s = .next { tookTurn ts s with trace := .hostRead k v :: s.trace }) ∧
    (14 ≤ k → step s = .refused .hostReadNoRegister)

/-- R41: while BUSY = 1 only `HostRead(0)` is defined, and returns BUSY = 1 with the last ERR. -/
def Obligations.HostReadWhileBusy : Prop :=
  ∀ (s : State) (k : Nat) (ts : List Turn), s.env.turns = .hostRead k :: ts → s.ph ≠ .idle →
    (k = 0 → step s = .next { tookTurn ts s with
        trace := .hostRead 0 (.bits8 (0#5 ++ s.err.bits ++ 1#1)) :: s.trace }) ∧
    (1 ≤ k → k ≤ 13 → step s = .refused .hostReadWhileBusy)

/-! ### Encoding and acceptance -/

/-- 30_encoding.md section 2 (R94): words written out bit by bit from the encodings. -/
def Obligations.WrittenWordsDecode : Prop :=
  decode 0b0000000100000000000000000000000000000000000000000000000000000000#64 = .command .rdacc ∧
  decode 0b0000001000000000000000000000000000000000000000000000000000000000#64 = .command .rdtemp ∧
  decode 0b0000001100000000000000000000001000000000000000000000000000000101#64 =
    .command (.calib 2 5) ∧
  decode 0b0000001100000000111111111111111100000000000000000000000000000000#64 =
    .command (.calib 65535 0) ∧
  decode 0b0000000100000001000000000000000000000000000000000000000000000000#64 =
    .illegal .reservedBitsSet ∧
  decode 0b0000010000000000000000000000000000000000000000000000000000000000#64 =
    .illegal .noSuchOpcode

/-- 30_encoding.md sections 1 to 3: decoding and encoding are exact inverses: the decoder reads a command
from a word exactly when the word is that command's encoding, for every command and every word. That this
includes a CALIB whose COUNT is 0 or above BUF_DEPTH, whose word R92, R94 and R97 call illegal, is the
model's choice: its acceptance checks the range and refuses it in the same step (log 7). -/
def Obligations.DecodeExactlyInvertsEncode : Prop :=
  ∀ (w : CmdWord) (i : Instr), decode w = .command i ↔ w = encode i

/-- 30_encoding.md section 4 (R97, R99): the words that decode to an admissible command are exactly the
three patterns. -/
def Obligations.LegalWordsAreTheThreePatterns : Prop :=
  ∀ (depth : Nat) (w : CmdWord),
    (∃ i, decode w = .command i ∧ i.wellFormed depth = true) ↔ legalWord depth w

/-- R92: the acceptance step, branch by branch on the bits of the word, and that a word presented while PH
is not IDLE stays with the host. -/
def Obligations.AcceptanceStep : Prop :=
  ∀ (s : State) (w : CmdWord) (ws : List CmdWord) (ts : List Turn), s.env.cmds = w :: ws → offers s ts →
    (s.ph = .idle →
      (w.extractLsb' 56 8 = 0x01 → w.extractLsb' 0 56 = 0 →
        step s = .next { tookCommand w ws (tookTurn ts s) with
          ph := .accSt
          trace := .requested (.port (.readByte .status)) :: .accepted w :: s.trace }) ∧
      (w.extractLsb' 56 8 = 0x02 → w.extractLsb' 0 56 = 0 →
        step s = .next { tookCommand w ws (tookTurn ts s) with
          ph := .tmpRd
          trace := .requested (.port (.readBytes .temperature 2)) :: .accepted w :: s.trace }) ∧
      (w.extractLsb' 56 8 = 0x03 → w.extractLsb' 48 8 = 0 → 1 ≤ (w.extractLsb' 32 16).toNat →
        (w.extractLsb' 32 16).toNat ≤ s.bufDepth →
        step s = .next { tookCommand w ws (tookTurn ts s) with
          n := w.extractLsb' 32 16
          ms := w.extractLsb' 0 32
          idx := 0
          buf := ⟨[], [], []⟩
          ph := .calSt
          trace := .requested (.port (.readByte .status)) :: .accepted w :: s.trace }) ∧
      (¬ legalWord s.bufDepth w → step s = .next (refusedWord (tookCommand w ws (tookTurn ts s))))) ∧
    (s.ph ≠ .idle → ∀ t, step s = .next t → t.env.cmds = w :: ws)

/-- 30_encoding.md section 2: when the presented word decodes to a command, the step is exec of that
command at the state in which the word has been taken from the host and recorded as accepted. -/
def Obligations.StepRunsDecodedCommand : Prop :=
  ∀ (s : State) (w : CmdWord) (ws : List CmdWord) (ts : List Turn) (i : Instr),
    s.ph = .idle → offers s ts → s.env.cmds = w :: ws → decode w = .command i →
      step s = exec i (tookCommand w ws (tookTurn ts s))

/-- 10_state.md section 7 (R36): in every other phase the step is exec of the running command; the CAL_FIN
step happens although no agent outside moves. -/
def Obligations.StepContinuesRunningCommand : Prop :=
  ∀ (s : State) (ts : List Turn),
    (offers s ts →
      (s.ph = .accSt ∨ s.ph = .accFifo → step s = exec .rdacc (tookTurn ts s)) ∧
      (s.ph = .tmpRd → step s = exec .rdtemp (tookTurn ts s)) ∧
      (s.ph = .calSt ∨ s.ph = .calFifo ∨ s.ph = .calWait ∨ s.ph = .calFin →
        step s = exec (.calib s.n s.ms) (tookTurn ts s))) ∧
    (s.env.turns = .silent :: ts →
      (s.ph = .calFin → step s = exec (.calib s.n s.ms) (tookTurn ts s)) ∧
      (s.ph ≠ .calFin → step s = .next (tookTurn ts s)))

/-- 30_encoding.md section 2 and 20_memory.md section 5 (R79): while a command runs, the words waiting at
the host neither move nor influence the step. -/
def Obligations.WordHeldWhileBusy : Prop :=
  ∀ (s : State) (ws : List CmdWord), s.ph ≠ .idle →
    step (withCmds ws s) = mapNext (withCmds ws) (step s) ∧
    ∀ t, step s = .next t → t.env.cmds = s.env.cmds

/-- 10_state.md section 7 (R37, which the spec marks as derived from R92, R119, R120, R143, R155, R156, R158
and R161): the phase graph. No step takes another transition, hardware reset apart, and every transition of
the graph is taken by some step from a state that meets the invariant. -/
def Obligations.PhaseGraphIsComplete : Prop :=
  (∀ s t : State, step s = .next t →
    t.ph = s.ph ∨ phaseEdge s.ph t.ph = true ∨ (s.env.turns.head? = some .reset ∧ t.ph = .idle)) ∧
  (∀ p q : Phase, phaseEdge p q = true →
    ∃ s t : State, Inv s ∧ s.ph = p ∧ t.ph = q ∧ step s = .next t)

/-- 60_exceptions.md section 6 (R195): a request that is never answered leaves SDCA in its phase for ever,
nothing changing. -/
def Obligations.UnansweredRequestHangs : Prop :=
  ∀ (s : State) (k : Nat), s.env.turns = [] → unanswered s → Sys2Proof.core.run k s = .next s

/-! ### The decode -/

/-- 40_sample_decode.md section 1 (R110, whose agreement of the three forms the spec marks as derived from
R9): the three forms of `field20` agree. -/
def Obligations.Field20FormsAgree : Prop :=
  ∀ b0 b1 b2 : Byte,
    (field20 b0 b1 b2).toNat = b0.toNat * 4096 + b1.toNat * 16 + b2.toNat / 16 ∧
    (field20 b0 b1 b2).toNat = (b0.toNat <<< 12 ||| b1.toNat <<< 4 ||| b2.toNat >>> 4) ∧
    field20 b0 b1 b2 = (b0 ++ b1 ++ b2.extractLsb' 4 4 : BitVec (8 + 8 + 4))

/-- R112: `sext20` is the signed reading of the 20-bit pattern, in all three forms, with its range and the
source's boundary values. -/
def Obligations.Sext20IsTwosComplement : Prop :=
  (∀ raw : BitVec 20,
    sext20 raw = raw.toInt ∧
    sext20 raw = (if 0x80000 ≤ raw.toNat then (raw.toNat : Int) - 0x100000 else raw.toNat) ∧
    -524288 ≤ sext20 raw ∧ sext20 raw ≤ 524287) ∧
  sext20 0x7FFFF = 524287 ∧ sext20 0x80000 = -524288 ∧ sext20 0x00000 = 0

/-- 40_sample_decode.md section 3 (R113): `sext20` is a bijection onto the 20-bit signed integers, and
`field20` is onto and loses exactly the padding nibble. -/
def Obligations.DecodeLosesOnlyPadding : Prop :=
  (∀ a b : BitVec 20, sext20 a = sext20 b → a = b) ∧
  (∀ v : Int, -524288 ≤ v → v ≤ 524287 → ∃ raw, sext20 raw = v) ∧
  (∀ raw : BitVec 20, ∃ b0 b1 b2, field20 b0 b1 b2 = raw) ∧
  (∀ b0 b1 b2 c0 c1 c2 : Byte, field20 b0 b1 b2 = field20 c0 c1 c2 ↔
    b0 = c0 ∧ b1 = c1 ∧ b2.extractLsb' 4 4 = c2.extractLsb' 4 4)

/-- R115: the register form of a decoded field: bits 19:0 are the field, bits 31:20 twelve copies of its
bit 19. -/
def Obligations.RawRegisterForm : Prop :=
  (∀ (d : Frame) (s : State),
    (writeSample Carrier.exact d s).raw =
      ⟨tc32 (decodeFrame d).x, tc32 (decodeFrame d).y, tc32 (decodeFrame d).z⟩) ∧
  (∀ raw : BitVec 20, (tc32 (sext20 raw)).extractLsb' 0 20 = raw ∧
    ∀ i, 20 ≤ i → i < 32 → (tc32 (sext20 raw)).getLsbD i = raw.getLsbD 19) ∧
  tc32 524287 = 0x0007FFFF ∧ tc32 (-524288) = 0xFFF80000 ∧ tc32 (-1) = 0xFFFFFFFF ∧ tc32 0 = 0x00000000

/-- 40_sample_decode.md section 6 (R117, whose round trip the spec marks as derived from R110 and R112):
decoding what `encode20` made gives the value back, for every value and padding; the other
direction holds exactly when the padding nibbles agree. -/
def Obligations.Encode20RoundTrip : Prop :=
  (∀ (v : Int) (p : BitVec 4), -524288 ≤ v → v ≤ 524287 →
    sext20 (field20 (encode20 v p).1 (encode20 v p).2.1 (encode20 v p).2.2) = v) ∧
  (∀ (b0 b1 b2 : Byte) (p : BitVec 4),
    encode20 (sext20 (field20 b0 b1 b2)) p = (b0, b1, b2) ↔ p = b2.extractLsb' 0 4)

/-- 20_memory.md section 3 (R69): the padding nibbles of a burst have no effect on any register except
FRAME, in RDACC and in CALIB (the history records the bytes as received). -/
def Obligations.PaddingTouchesOnlyFrame : Prop :=
  ∀ (s : State) (d e : Frame) (rest : List (PortAnswer Frame)), samePayload d e →
    s.env.fifoAns = .bytes d :: rest →
    (s.ph = .accFifo → ∃ t u, exec .rdacc s = .next t ∧
      exec .rdacc { s with env := { s.env with fifoAns := .bytes e :: rest } } = .next u ∧
      t.frame = d ∧ u = { t with frame := e, trace := u.trace }) ∧
    (∀ c m, s.ph = .calFifo → canStore s → ∃ t u, exec (.calib c m) s = .next t ∧
      exec (.calib c m) { s with env := { s.env with fifoAns := .bytes e :: rest } } = .next u ∧
      t.frame = d ∧ u = { t with frame := e, trace := u.trace })

/-! ### RDACC and RDTEMP -/

/-- 30_encoding.md section 2: from IDLE each of the two bare commands enters its first phase and issues its
request, and changes nothing else. -/
def Obligations.BareCommandsStart : Prop :=
  ∀ s : State, s.ph = .idle →
    exec .rdacc s = .next { s with
      ph := .accSt
      trace := .requested (.port (.readByte .status)) :: s.trace } ∧
    exec .rdtemp s = .next { s with
      ph := .tmpRd
      trace := .requested (.port (.readBytes .temperature 2)) :: s.trace }

/-- R119: the status step of RDACC, for each answer. -/
def Obligations.RdaccStatusStep : Prop :=
  ∀ (s : State) (rest : List (PortAnswer Byte)), s.ph = .accSt →
    (∀ st : Byte, s.env.statusAns = .bytes st :: rest → st.getLsbD 0 = false →
      exec .rdacc s = .next { s with
        sst := st
        raw := ⟨0, 0, 0⟩
        acc := ⟨num 0, num 0, num 0⟩
        err := .ok
        ph := .idle
        env := { s.env with statusAns := rest }
        trace := .completed .ok :: .answered (.readByte .status) (.bytes [st]) :: s.trace }) ∧
    (∀ st : Byte, s.env.statusAns = .bytes st :: rest → st.getLsbD 0 = true →
      exec .rdacc s = .next { s with
        sst := st
        ph := .accFifo
        env := { s.env with statusAns := rest }
        trace := .requested (.port (.readBytes .fifoData 9)) ::
          .answered (.readByte .status) (.bytes [st]) :: s.trace }) ∧
    (s.env.statusAns = .busError :: rest →
      exec .rdacc s = .next { s with
        err := .busError
        ph := .idle
        env := { s.env with statusAns := rest }
        trace := .completed .busError :: .answered (.readByte .status) .busError :: s.trace })

/-- R120: the burst step of RDACC, for each answer. -/
def Obligations.RdaccBurstStep : Prop :=
  ∀ (s : State) (rest : List (PortAnswer Frame)), s.ph = .accFifo →
    (∀ d : Frame, s.env.fifoAns = .bytes d :: rest →
      exec .rdacc s = .next { s with
        frame := d
        raw := ⟨tc32 (sext20 (field20 d[0] d[1] d[2])), tc32 (sext20 (field20 d[3] d[4] d[5])),
          tc32 (sext20 (field20 d[6] d[7] d[8]))⟩
        acc := ⟨num (sext20 (field20 d[0] d[1] d[2])) * s.scale,
          num (sext20 (field20 d[3] d[4] d[5])) * s.scale,
          num (sext20 (field20 d[6] d[7] d[8])) * s.scale⟩
        err := .ok
        ph := .idle
        env := { s.env with fifoAns := rest }
        trace := .completed .ok :: .answered (.readBytes .fifoData 9) (.bytes d.toList) :: s.trace }) ∧
    (s.env.fifoAns = .busError :: rest →
      exec .rdacc s = .next { s with
        err := .busError
        ph := .idle
        env := { s.env with fifoAns := rest }
        trace := .completed .busError :: .answered (.readBytes .fifoData 9) .busError :: s.trace })

/-- 40_sample_decode.md section 7 (R121, which the spec marks as derived from R119 and R120): a whole RDACC
from IDLE has exactly the four outcomes of the table, chosen by the answers alone; the last column is the
number of port requests. Every register not named keeps its value. -/
def Obligations.RdaccWholeCommand : Prop :=
  ∀ (s : State) (ws : List CmdWord) (r1 : List (PortAnswer Byte)) (r2 : List (PortAnswer Frame)),
    s.ph = .idle → s.env.turns = [] → s.env.cmds = 0x0100000000000000#64 :: ws →
    (s.env.statusAns = .busError :: r1 → ∃ t : State, Sys2Proof.core.run 2 s = .next t ∧
      portRequests t.trace = portRequests s.trace + 1 ∧
      t = { s with
        err := .busError
        env := { s.env with cmds := ws, statusAns := r1 }
        trace := t.trace }) ∧
    (∀ st : Byte, s.env.statusAns = .bytes st :: r1 → st.getLsbD 0 = false →
      ∃ t : State, Sys2Proof.core.run 2 s = .next t ∧
        portRequests t.trace = portRequests s.trace + 1 ∧
        t = { s with
          sst := st
          raw := ⟨0, 0, 0⟩
          acc := ⟨num 0, num 0, num 0⟩
          err := .ok
          env := { s.env with cmds := ws, statusAns := r1 }
          trace := t.trace }) ∧
    (∀ st : Byte, s.env.statusAns = .bytes st :: r1 → st.getLsbD 0 = true →
      s.env.fifoAns = .busError :: r2 → ∃ t : State, Sys2Proof.core.run 3 s = .next t ∧
        portRequests t.trace = portRequests s.trace + 2 ∧
        t = { s with
          sst := st
          err := .busError
          env := { s.env with cmds := ws, statusAns := r1, fifoAns := r2 }
          trace := t.trace }) ∧
    (∀ (st : Byte) (d : Frame), s.env.statusAns = .bytes st :: r1 → st.getLsbD 0 = true →
      s.env.fifoAns = .bytes d :: r2 → ∃ t : State, Sys2Proof.core.run 3 s = .next t ∧
        portRequests t.trace = portRequests s.trace + 2 ∧
        t = { s with
          sst := st
          frame := d
          raw := (decodeFrame d).map tc32
          acc := (decodeFrame d).map fun k => num k * s.scale
          err := .ok
          env := { s.env with cmds := ws, statusAns := r1, fifoAns := r2 }
          trace := t.trace })

/-- 40_sample_decode.md section 7 (R121): the frame of RDACC, in every phase: SCALE, OFF, TEMP, TRAW, BUF,
IDX, N, MS are never changed; SST changes in the status step only, FRAME in the burst step only, ERR only
when the command ends. -/
def Obligations.RdaccFrame : Prop :=
  ∀ s t : State, exec .rdacc s = .next t →
    t.scale = s.scale ∧ t.off = s.off ∧ t.temp = s.temp ∧ t.traw = s.traw ∧ t.buf = s.buf ∧
    t.idx = s.idx ∧ t.n = s.n ∧ t.ms = s.ms ∧ t.bufDepth = s.bufDepth ∧
    t.env.cmds = s.env.cmds ∧ t.env.tempAns = s.env.tempAns ∧ t.env.delays = s.env.delays ∧
    (s.ph ≠ .accSt → t.sst = s.sst) ∧ (s.ph ≠ .accFifo → t.frame = s.frame) ∧
    (s.ph = .idle → t.raw = s.raw ∧ t.acc = s.acc ∧ t.err = s.err) ∧
    (t.err = .busError → s.err ≠ .busError → t.raw = s.raw ∧ t.acc = s.acc ∧ t.frame = s.frame)

/-- R143: the step of RDTEMP, for each answer. -/
def Obligations.RdtempStep : Prop :=
  ∀ (s : State) (rest : List (PortAnswer TempBytes)), s.ph = .tmpRd →
    (∀ t0 t1 : Byte, s.env.tempAns = .bytes #v[t0, t1] :: rest →
      exec .rdtemp s = .next { s with
        traw := t0 ++ t1
        temp := num 25 + (num (t0.toNat * 256 + t1.toNat : Nat) - num 1852) / (-181 / 20)
        err := .ok
        ph := .idle
        env := { s.env with tempAns := rest }
        trace := .completed .ok :: .answered (.readBytes .temperature 2) (.bytes [t0, t1]) ::
          s.trace }) ∧
    (s.env.tempAns = .busError :: rest →
      exec .rdtemp s = .next { s with
        err := .busError
        ph := .idle
        env := { s.env with tempAns := rest }
        trace := .completed .busError :: .answered (.readBytes .temperature 2) .busError :: s.trace })

/-- R142: the temperature formula, as written and in closed form, strictly decreasing, with its extremes
over the 16-bit values. -/
def Obligations.TemperatureFormula : Prop :=
  (∀ v : BitVec 16, tempC .exact v = num 25 + (num (v.toNat : Int) - num 1852) / (-181 / 20) ∧
    tempC .exact v = 25 - 20 * ((v.toNat : NumVal) - 1852) / 181) ∧
  (∀ v w : BitVec 16, v.toNat < w.toNat → tempC .exact w < tempC .exact v) ∧
  tempC .exact 0 = 41565 / 181 ∧ tempC .exact 65535 = -1269135 / 181

/-- 41_temperature.md (R144): the frame of RDTEMP: nothing but TRAW, TEMP, STAT.ERR and PH is ever
changed, and an error leaves TRAW and TEMP unchanged. -/
def Obligations.RdtempFrame : Prop :=
  ∀ s t : State, exec .rdtemp s = .next t →
    t.scale = s.scale ∧ t.off = s.off ∧ t.acc = s.acc ∧ t.raw = s.raw ∧ t.sst = s.sst ∧
    t.frame = s.frame ∧ t.buf = s.buf ∧ t.idx = s.idx ∧ t.n = s.n ∧ t.ms = s.ms ∧
    t.bufDepth = s.bufDepth ∧ t.env.cmds = s.env.cmds ∧ t.env.statusAns = s.env.statusAns ∧
    t.env.fifoAns = s.env.fifoAns ∧ t.env.delays = s.env.delays ∧
    (s.ph = .idle → t.traw = s.traw ∧ t.temp = s.temp ∧ t.err = s.err) ∧
    (t.err = .busError → s.err ≠ .busError → t.traw = s.traw ∧ t.temp = s.temp)

/-! ### CALIB -/

/-- 42_calibration.md section 1 (R151): the acceptance of CALIB, and its InvalidArgument, for every
operand. -/
def Obligations.CalibAcceptance : Prop :=
  ∀ (s : State) (c : BitVec 16) (m : BitVec 32), s.ph = .idle →
    (1 ≤ c.toNat → c.toNat ≤ s.bufDepth →
      exec (.calib c m) s = .next { s with
        n := c
        ms := m
        idx := 0
        buf := ⟨[], [], []⟩
        ph := .calSt
        trace := .requested (.port (.readByte .status)) :: s.trace }) ∧
    (c.toNat = 0 ∨ s.bufDepth < c.toNat → exec (.calib c m) s = .next (refusedWord s))

/-- R154: `store_sample` writes the triple in ACC to entry IDX, leaves every entry below it, and counts
IDX up; after it entries 0 to IDX − 1 have values. -/
def Obligations.StoreSampleWritesEntryIdx : Prop :=
  ∀ s : State, canStore s → ∃ t, storeSample s = some t ∧
    t.idx.toNat = s.idx.toNat + 1 ∧ buffersWf t.buf t.idx = true ∧
    t.buf.x[s.idx.toNat]? = some s.acc.x ∧ t.buf.y[s.idx.toNat]? = some s.acc.y ∧
    t.buf.z[s.idx.toNat]? = some s.acc.z ∧
    (∀ i, i < s.idx.toNat → t.buf.x[i]? = s.buf.x[i]? ∧ t.buf.y[i]? = s.buf.y[i]? ∧
      t.buf.z[i]? = s.buf.z[i]?) ∧
    t = { s with buf := t.buf, idx := t.idx }

/-- R155: the status step of CALIB, for each answer. -/
def Obligations.CalibStatusStep : Prop :=
  ∀ (s : State) (c : BitVec 16) (m : BitVec 32) (rest : List (PortAnswer Byte)), s.ph = .calSt →
    (∀ st : Byte, s.env.statusAns = .bytes st :: rest → st.getLsbD 0 = false → canStore s →
      exec (.calib c m) s = .next { s with
        sst := st
        raw := ⟨0, 0, 0⟩
        acc := ⟨num 0, num 0, num 0⟩
        buf := ⟨s.buf.x ++ [num 0], s.buf.y ++ [num 0], s.buf.z ++ [num 0]⟩
        idx := s.idx + 1
        ph := .calWait
        env := { s.env with statusAns := rest }
        trace := .requested (.delay s.ms) :: .answered (.readByte .status) (.bytes [st]) ::
          s.trace }) ∧
    (∀ st : Byte, s.env.statusAns = .bytes st :: rest → st.getLsbD 0 = true →
      exec (.calib c m) s = .next { s with
        sst := st
        ph := .calFifo
        env := { s.env with statusAns := rest }
        trace := .requested (.port (.readBytes .fifoData 9)) ::
          .answered (.readByte .status) (.bytes [st]) :: s.trace }) ∧
    (s.env.statusAns = .busError :: rest →
      exec (.calib c m) s = .next { s with
        idx := 0
        buf := ⟨[], [], []⟩
        err := .busError
        ph := .idle
        env := { s.env with statusAns := rest }
        trace := .completed .busError :: .answered (.readByte .status) .busError :: s.trace })

/-- R156: the burst step of CALIB, for each answer. -/
def Obligations.CalibBurstStep : Prop :=
  ∀ (s : State) (c : BitVec 16) (m : BitVec 32) (rest : List (PortAnswer Frame)), s.ph = .calFifo →
    (∀ (d : Frame) (sx sy sz : Int), s.env.fifoAns = .bytes d :: rest → canStore s →
      sx = sext20 (field20 d[0] d[1] d[2]) → sy = sext20 (field20 d[3] d[4] d[5]) →
      sz = sext20 (field20 d[6] d[7] d[8]) →
      exec (.calib c m) s = .next { s with
        frame := d
        raw := ⟨tc32 sx, tc32 sy, tc32 sz⟩
        acc := ⟨num sx * s.scale, num sy * s.scale, num sz * s.scale⟩
        buf := ⟨s.buf.x ++ [num sx * s.scale], s.buf.y ++ [num sy * s.scale],
          s.buf.z ++ [num sz * s.scale]⟩
        idx := s.idx + 1
        ph := .calWait
        env := { s.env with fifoAns := rest }
        trace := .requested (.delay s.ms) :: .answered (.readBytes .fifoData 9) (.bytes d.toList) ::
          s.trace }) ∧
    (s.env.fifoAns = .busError :: rest →
      exec (.calib c m) s = .next { s with
        idx := 0
        buf := ⟨[], [], []⟩
        err := .busError
        ph := .idle
        env := { s.env with fifoAns := rest }
        trace := .completed .busError :: .answered (.readBytes .fifoData 9) .busError :: s.trace })

/-- R158: the wait step of CALIB; until the timer completes the delay nothing happens, and the words the
host presents stay with it. -/
def Obligations.CalibWaitStep : Prop :=
  ∀ (s : State) (c : BitVec 16) (m : BitVec 32), s.ph = .calWait →
    (∀ k : Nat, s.env.delays = k + 1 → s.idx = s.n → exec (.calib c m) s = .next { s with
      ph := .calFin
      env := { s.env with delays := k }
      trace := .delayCompleted :: s.trace }) ∧
    (∀ k : Nat, s.env.delays = k + 1 → s.idx ≠ s.n → exec (.calib c m) s = .next { s with
      ph := .calSt
      env := { s.env with delays := k }
      trace := .requested (.port (.readByte .status)) :: .delayCompleted :: s.trace }) ∧
    (s.env.delays = 0 → exec (.calib c m) s = .next s ∧
      ∀ ts, offers s ts → step s = .next (tookTurn ts s))

/-- 42_calibration.md section 3 (R159): the mean of a run's entries is their sum over N. That there is no mean
where an entry has no value, or N is 0, is the model's reading of 10_state.md section 6 (R33; log 9). -/
def Obligations.MeanIsSumOverCount : Prop :=
  ∀ (l : List NumVal) (idx n : BitVec 16),
    (1 ≤ n.toNat → n.toNat ≤ idx.toNat → n.toNat ≤ l.length →
      calMean .exact l idx n = some ((l.take n.toNat).sum / (n.toNat : NumVal))) ∧
    (n.toNat = 0 ∨ idx.toNat < n.toNat ∨ l.length < n.toNat → calMean .exact l idx n = none)

/-- R160: the bias correction, the denominator as written and in closed form, and when it is degenerate. -/
def Obligations.DenominatorFormula : Prop :=
  ∀ m : Triple NumVal,
    biasCorrected .exact m = m.z - 10 ∧ calX .exact m = ((m.z - 10 - m.x) + (m.z - 10 - m.y)) / 2 ∧
    calX .exact m = m.z - 10 - (m.x + m.y) / 2 ∧
    (isZero (calX .exact m) = true ↔ 2 * (m.z - 10) = m.x + m.y)

/-- R161: the final step of CALIB, both branches. -/
def Obligations.CalibFinalStep : Prop :=
  ∀ (s : State) (c : BitVec 16) (m : BitVec 32) (meanX meanY meanZ x : NumVal), s.ph = .calFin →
    buffersWf s.buf s.idx = true → s.idx = s.n → 1 ≤ s.n.toNat →
    meanX = s.buf.x.sum / (s.n.toNat : NumVal) → meanY = s.buf.y.sum / (s.n.toNat : NumVal) →
    meanZ = s.buf.z.sum / (s.n.toNat : NumVal) →
    x = ((meanZ - 10 - meanX) + (meanZ - 10 - meanY)) / 2 →
    (x = 0 → exec (.calib c m) s = .next { s with
      idx := 0
      buf := ⟨[], [], []⟩
      err := .calibrationError
      ph := .idle
      trace := .completed .calibrationError :: s.trace }) ∧
    (x ≠ 0 → exec (.calib c m) s = .next { s with
      off := ⟨meanX, meanY, meanZ - 10⟩
      scale := 1 / x
      idx := 0
      buf := ⟨[], [], []⟩
      err := .ok
      ph := .idle
      trace := .completed .ok :: s.trace })

/-- 42_calibration.md (R151, R153, R161, R163): the frame of CALIB, in every phase: TEMP and TRAW are never
touched; N and MS change at acceptance only; SST, RAW, ACC and FRAME in the sampling steps only; SCALE and
OFF in CAL_FIN only. -/
def Obligations.CalibFrame : Prop :=
  ∀ (s t : State) (c : BitVec 16) (m : BitVec 32), exec (.calib c m) s = .next t →
    t.temp = s.temp ∧ t.traw = s.traw ∧ t.bufDepth = s.bufDepth ∧ t.env.cmds = s.env.cmds ∧
    t.env.tempAns = s.env.tempAns ∧
    (s.ph ≠ .idle → t.n = s.n ∧ t.ms = s.ms) ∧
    (s.ph ≠ .calFin → t.scale = s.scale ∧ t.off = s.off) ∧
    (s.ph ≠ .calSt → t.sst = s.sst) ∧
    (s.ph ≠ .calFifo → t.frame = s.frame) ∧
    (s.ph ≠ .calSt → s.ph ≠ .calFifo → t.raw = s.raw ∧ t.acc = s.acc) ∧
    (s.ph = .calWait → t.buf = s.buf ∧ t.idx = s.idx ∧ t.err = s.err) ∧
    (t.ph ≠ .idle → t.err = s.err)

/-- 42_calibration.md section 4 (R163, which the spec marks as derived from R92, R155, R156, R158, R161 and
R162), the last two rows: a calibration run without BusError, from acceptance to completion, as one function
of SCALE at acceptance and the port's answers: the number of its requests and delays, and SCALE, OFF and ERR
after it. No other agent takes a turn in it. -/
def Obligations.CalibWholeRun : Prop :=
  ∀ (s : State) (c : BitVec 16) (m : BitVec 32) (ws : List CmdWord) (as : List CalibAnswer)
    (r1 : List (PortAnswer Byte)) (r2 : List (PortAnswer Frame)) (j : Nat),
    CalibStart s c m ws as r1 r2 j → as.length = c.toNat →
    ∃ t : State, Sys2Proof.core.run (1 + requestsOf as + as.length + 1) s = .next t ∧
      (runX s.scale as = 0 → t.err = .calibrationError ∧ t.scale = s.scale ∧ t.off = s.off) ∧
      (runX s.scale as ≠ 0 → t.err = .ok ∧ t.scale = 1 / runX s.scale as ∧
        t.off = ⟨runMean s.scale as Triple.x, runMean s.scale as Triple.y,
          runMean s.scale as Triple.z - 10⟩) ∧
      t.ph = .idle ∧ t.idx = 0 ∧ t.buf = ⟨[], [], []⟩ ∧ t.temp = s.temp ∧ t.traw = s.traw ∧
      (∀ a, as.getLast? = some a → t.acc = a.value s.scale ∧ .bytes t.sst = a.status) ∧
      t.env = { s.env with cmds := ws, statusAns := r1, fifoAns := r2, delays := j } ∧
      portRequests t.trace = portRequests s.trace + requestsOf as ∧
      delayRequests t.trace = delayRequests s.trace + as.length

/-- 42_calibration.md section 4 (R163, which the spec marks as derived), the two BusError rows: when the
first BusError is the status answer, or the burst answer, of sample `k` (the samples `as` before it being
without error), the run ends there: `k` delays, no further request, SCALE and OFF unchanged, ERR = 2. -/
def Obligations.CalibAbortedRun : Prop :=
  ∀ (s : State) (c : BitVec 16) (m : BitVec 32) (ws : List CmdWord) (as : List CalibAnswer)
    (r1 : List (PortAnswer Byte)) (r2 : List (PortAnswer Frame)) (j : Nat),
    as.length < c.toNat →
    (CalibStart s c m ws as (.busError :: r1) r2 j →
      ∃ t : State, Sys2Proof.core.run (1 + requestsOf as + as.length + 1) s = .next t ∧
        t.err = .busError ∧ t.scale = s.scale ∧ t.off = s.off ∧ t.ph = .idle ∧ t.idx = 0 ∧
        t.buf = ⟨[], [], []⟩ ∧ t.temp = s.temp ∧ t.traw = s.traw ∧
        t.env = { s.env with cmds := ws, statusAns := r1, fifoAns := r2, delays := j } ∧
        portRequests t.trace = portRequests s.trace + requestsOf as + 1 ∧
        delayRequests t.trace = delayRequests s.trace + as.length) ∧
    (∀ st : Byte, st.getLsbD 0 = true →
      CalibStart s c m ws as (.bytes st :: r1) (.busError :: r2) j →
      ∃ t : State, Sys2Proof.core.run (1 + requestsOf as + as.length + 2) s = .next t ∧
        t.err = .busError ∧ t.scale = s.scale ∧ t.off = s.off ∧ t.ph = .idle ∧ t.idx = 0 ∧
        t.buf = ⟨[], [], []⟩ ∧ t.temp = s.temp ∧ t.traw = s.traw ∧ t.sst = st ∧
        t.env = { s.env with cmds := ws, statusAns := r1, fifoAns := r2, delays := j } ∧
        portRequests t.trace = portRequests s.trace + requestsOf as + 2 ∧
        delayRequests t.trace = delayRequests s.trace + as.length)

/-! ### Errors and the whole machine -/

/-- R184: raising an error: PH to IDLE, ERR to the code, a CALIB's buffers discarded, and no other register
written (the history records the completion). -/
def Obligations.RaiseEffect : Prop :=
  ∀ (e : ErrCode) (s : State),
    (s.ph.isCal = false → raise e s = { s with
      ph := .idle
      err := e
      trace := .completed e :: s.trace }) ∧
    (s.ph.isCal = true → raise e s = { s with
      ph := .idle
      err := e
      idx := 0
      buf := ⟨[], [], []⟩
      trace := .completed e :: s.trace })

/-- 60_exceptions.md sections 1 and 2 (R181, R185): a BusError answer ends whichever command waits for it,
in that step: ERR is 2, PH is IDLE, no request is issued, and SCALE, OFF, RAW, ACC, FRAME, SST, TEMP and
TRAW keep their values. -/
def Obligations.BusErrorEndsTheCommand : Prop :=
  ∀ (s : State) (ts : List Turn), offers s ts →
    ((∃ r, (s.ph = .accSt ∨ s.ph = .calSt) ∧ s.env.statusAns = .busError :: r) ∨
      (∃ r, (s.ph = .accFifo ∨ s.ph = .calFifo) ∧ s.env.fifoAns = .busError :: r) ∨
      (∃ r, s.ph = .tmpRd ∧ s.env.tempAns = .busError :: r)) →
    ∃ t op, step s = .next t ∧ t.ph = .idle ∧ t.err = .busError ∧ s.ph.request s.ms = some (.port op) ∧
      t.trace = .completed .busError :: .answered op .busError :: s.trace ∧
      t.scale = s.scale ∧ t.off = s.off ∧ t.raw = s.raw ∧ t.acc = s.acc ∧ t.frame = s.frame ∧
      t.sst = s.sst ∧ t.temp = s.temp ∧ t.traw = s.traw ∧
      (s.ph.isCal = true → t.idx = 0 ∧ t.buf = ⟨[], [], []⟩)

/-- 60_exceptions.md sections 1 and 3 (R183, R187): each completion code comes from its own steps only:
InvalidArgument from acceptance, BusError from a step that waits for the port, CalibrationError from
CAL_FIN. -/
def Obligations.ErrorsComeFromTheirSteps : Prop :=
  ∀ (s t : State) (e : ErrCode) (es : List Event), step s = .next t →
    t.trace = .completed e :: (es ++ s.trace) →
    (e = .invalidArgument → s.ph = .idle) ∧
    (e = .busError → s.ph = .accSt ∨ s.ph = .accFifo ∨ s.ph = .tmpRd ∨ s.ph = .calSt ∨ s.ph = .calFifo) ∧
    (e = .calibrationError → s.ph = .calFin) ∧
    (e = .ok → s.ph = .accSt ∨ s.ph = .accFifo ∨ s.ph = .tmpRd ∨ s.ph = .calFin)

/-- 10_state.md section 2 and 60_exceptions.md section 2 (R21, R22, R185): hardware reset apart, SCALE and
OFF are written only by the CAL_FIN step that completes without error. -/
def Obligations.ScaleWrittenOnlyBySuccessfulCalib : Prop :=
  ∀ s t : State, step s = .next t → s.env.turns.head? ≠ some .reset →
    (t.scale = s.scale ∧ t.off = s.off) ∨ (s.ph = .calFin ∧ t.ph = .idle ∧ t.err = .ok)

/-- 10_state.md section 5 (R30, which the spec marks as derived from R120, R156 and R161): RAW and ACC are
written together: a step leaves both, or writes ACC as the signed RAW times the SCALE in effect, or writes
zero to both. -/
def Obligations.ReadingIsRawTimesScale : Prop :=
  ∀ s t : State, step s = .next t →
    (t.raw = s.raw ∧ t.acc = s.acc) ∨
    t.acc = ⟨num t.raw.x.toInt * s.scale, num t.raw.y.toInt * s.scale, num t.raw.z.toInt * s.scale⟩ ∨
    (t.raw = ⟨0, 0, 0⟩ ∧ t.acc = ⟨num 0, num 0, num 0⟩)

/-- The invariant of Safety.lean (the model's, log 9 and log 10 where it speaks of the buffers and the
history) holds at reset. -/
def Obligations.ResetMeetsInvariant : Prop := Inv State.reset

/-- Every step keeps the invariant, from every state that meets it: the buffers stay canonical, IDX stays
where the phase says, RAW stays sign-extended, ACC is RAW times a scale, SCALE is never zero, and the
history leaves open exactly the request of the phase. -/
def Obligations.StepKeepsInvariant : Prop :=
  ∀ s t : State, Inv s → step s = .next t → Inv t

/-- 10_state.md section 6 (R33) and 42_calibration.md section 2: under the invariant no step faults, so no
buffer entry without a value is ever read and no sample is stored out of range, in a run of any length. -/
def Obligations.InvariantRulesOutFaults : Prop :=
  ∀ (s : State) (k : Nat), Inv s → SafeRun k s

/-! ### The environment's boot -/

/-- 70_reset_and_hazards.md section 2 (R217 to R220): a construction in which nothing fails makes exactly
the requests of Reset, Configure and Power-On in that order; an absent handle is InvalidArgument, with no
request, and that it is reported in Uninitialized is the model's reading of R216 (log 18). -/
def Obligations.BootOrder : Prop :=
  (∀ (range : RangeSetting) (r : Byte),
    construct true range ⟨true, .bytes r, true, true⟩ =
      ⟨[.port (.write .reset 0x52), .delay 100, .port (.readByte .rangeSelect),
        .port (.write .rangeSelect (r ||| Config.rangeMask range)),
        .port (.write .powerControl 0x00), .delay 100], .poweredOn, .ok⟩) ∧
  (∀ range a, construct false range a = ⟨[], .uninitialized, .invalidArgument⟩)

/-- 70_reset_and_hazards.md section 2 (R218): configuring twice accumulates by OR: `r | m1 | m2`, bit by
bit, never clearing one. -/
def Obligations.RangeConfigureAccumulates : Prop :=
  ∀ (r m1 m2 : Byte) (i : Nat),
    (rangeConfigure (rangeConfigure r m1) m2).getLsbD i =
      (r.getLsbD i || m1.getLsbD i || m2.getLsbD i)

/-! ### Any numeric carrier, any addresses -/

/-- 00_scope.md section 5 (R12): the default carrier is the rationals with the inclusions, the exact
operations and the test for 0, and the machine is SDCA over it. -/
def Obligations.MachineIsTheDefaultCarrier : Prop :=
  (∀ (k : Int) (q a b : Rat), Carrier.exact.num k = k ∧ Carrier.exact.dec q = q ∧
    Carrier.exact.add a b = a + b ∧ Carrier.exact.sub a b = a - b ∧ Carrier.exact.mul a b = a * b ∧
    Carrier.exact.div a b = a / b ∧ (Carrier.exact.isZero q = true ↔ q = 0)) ∧
  (∀ i s, execOf Carrier.exact i s = exec i s) ∧ (∀ s, stepOf Carrier.exact s = step s) ∧
  resetOf Carrier.exact = State.reset

/-- 00_scope.md section 5 and 41_temperature.md (R12, R116, R119, R120, R142, R143): over any carrier, what
RDACC and RDTEMP write, with the operands and the order of every operation of the carrier. -/
def Obligations.CarrierReadings : Prop :=
  ∀ (Num : Type) (C : Carrier Num) (s : State Num),
    (∀ (st : Byte) (rest : List (PortAnswer Byte)), s.ph = .accSt → s.env.statusAns = .bytes st :: rest →
      st.getLsbD 0 = false → execOf C .rdacc s = .next { s with
        sst := st
        raw := ⟨0, 0, 0⟩
        acc := ⟨C.num 0, C.num 0, C.num 0⟩
        err := .ok
        ph := .idle
        env := { s.env with statusAns := rest }
        trace := .completed .ok :: .answered (.readByte .status) (.bytes [st]) :: s.trace }) ∧
    (∀ (d : Frame) (rest : List (PortAnswer Frame)) (sx sy sz : Int), s.ph = .accFifo →
      s.env.fifoAns = .bytes d :: rest → sx = sext20 (field20 d[0] d[1] d[2]) →
      sy = sext20 (field20 d[3] d[4] d[5]) → sz = sext20 (field20 d[6] d[7] d[8]) →
      execOf C .rdacc s = .next { s with
        frame := d
        raw := ⟨tc32 sx, tc32 sy, tc32 sz⟩
        acc := ⟨C.mul (C.num sx) s.scale, C.mul (C.num sy) s.scale, C.mul (C.num sz) s.scale⟩
        err := .ok
        ph := .idle
        env := { s.env with fifoAns := rest }
        trace := .completed .ok :: .answered (.readBytes .fifoData 9) (.bytes d.toList) :: s.trace }) ∧
    (∀ (t0 t1 : Byte) (rest : List (PortAnswer TempBytes)), s.ph = .tmpRd →
      s.env.tempAns = .bytes #v[t0, t1] :: rest → execOf C .rdtemp s = .next { s with
        traw := t0 ++ t1
        temp := C.add (C.num 25)
          (C.div (C.sub (C.num (t0.toNat * 256 + t1.toNat : Nat)) (C.num 1852)) (C.dec (-181 / 20)))
        err := .ok
        ph := .idle
        env := { s.env with tempAns := rest }
        trace := .completed .ok :: .answered (.readBytes .temperature 2) (.bytes [t0, t1]) :: s.trace })

/-- 00_scope.md section 5 and 42_calibration.md section 2 (R12, R153 to R156): over any carrier, what the two
sampling steps of CALIB store. -/
def Obligations.CarrierSamples : Prop :=
  ∀ (Num : Type) (C : Carrier Num) (s : State Num) (c : BitVec 16) (m : BitVec 32), canStore s →
    (∀ (st : Byte) (rest : List (PortAnswer Byte)), s.ph = .calSt → s.env.statusAns = .bytes st :: rest →
      st.getLsbD 0 = false → execOf C (.calib c m) s = .next { s with
        sst := st
        raw := ⟨0, 0, 0⟩
        acc := ⟨C.num 0, C.num 0, C.num 0⟩
        buf := ⟨s.buf.x ++ [C.num 0], s.buf.y ++ [C.num 0], s.buf.z ++ [C.num 0]⟩
        idx := s.idx + 1
        ph := .calWait
        env := { s.env with statusAns := rest }
        trace := .requested (.delay s.ms) :: .answered (.readByte .status) (.bytes [st]) :: s.trace }) ∧
    (∀ (d : Frame) (rest : List (PortAnswer Frame)) (x y z : Num), s.ph = .calFifo →
      s.env.fifoAns = .bytes d :: rest → x = C.mul (C.num (decodeFrame d).x) s.scale →
      y = C.mul (C.num (decodeFrame d).y) s.scale → z = C.mul (C.num (decodeFrame d).z) s.scale →
      execOf C (.calib c m) s = .next { s with
        frame := d
        raw := (decodeFrame d).map tc32
        acc := ⟨x, y, z⟩
        buf := ⟨s.buf.x ++ [x], s.buf.y ++ [y], s.buf.z ++ [z]⟩
        idx := s.idx + 1
        ph := .calWait
        env := { s.env with fifoAns := rest }
        trace := .requested (.delay s.ms) :: .answered (.readBytes .fifoData 9) (.bytes d.toList) ::
          s.trace })

/-- R159: over any carrier, with all N samples stored, the means are the left-to-right sums of the entries,
entry 0 first, each divided by `num(N)`. -/
def Obligations.CarrierMeans : Prop :=
  ∀ (Num : Type) (C : Carrier Num) (s : State Num) (vx vy vz : Num) (rx ry rz : List Num),
    s.buf = ⟨vx :: rx, vy :: ry, vz :: rz⟩ → buffersWf s.buf s.idx = true → s.idx = s.n →
    calMeans C s = some ⟨C.div (rx.foldl C.add vx) (C.num (s.n.toNat : Int)),
      C.div (ry.foldl C.add vy) (C.num (s.n.toNat : Int)),
      C.div (rz.foldl C.add vz) (C.num (s.n.toNat : Int))⟩

/-- R161: over any carrier, the final step of CALIB, both branches, the zero test being the carrier's. -/
def Obligations.CarrierFinalStep : Prop :=
  ∀ (Num : Type) (C : Carrier Num) (s : State Num) (c : BitVec 16) (m : BitVec 32)
    (meanX meanY meanZ zc x : Num), s.ph = .calFin → calMeans C s = some ⟨meanX, meanY, meanZ⟩ →
    zc = C.sub meanZ (C.num 10) →
    x = C.div (C.add (C.sub zc meanX) (C.sub zc meanY)) (C.num 2) →
    (C.isZero x = true → execOf C (.calib c m) s = .next { s with
      idx := 0
      buf := ⟨[], [], []⟩
      err := .calibrationError
      ph := .idle
      trace := .completed .calibrationError :: s.trace }) ∧
    (C.isZero x = false → execOf C (.calib c m) s = .next { s with
      off := ⟨meanX, meanY, zc⟩
      scale := C.div (C.num 1) x
      idx := 0
      buf := ⟨[], [], []⟩
      err := .ok
      ph := .idle
      trace := .completed .ok :: s.trace })

/-- 00_scope.md section 5 (R12, which the spec marks as derived from R142, R159 and R160): no command divides
by a value for which the zero test holds: what a carrier's division answers there has no influence on any
step of any command, in any state. -/
def Obligations.NoDivisionByZero : Prop :=
  ∀ (Num : Type) (C : Carrier Num) (div' : Num → Num → Num),
    (∀ a b, C.isZero b = false → div' a b = C.div a b) →
    ∀ (i : Instr) (s : State Num), execOf { C with div := div' } i s = execOf C i s

/-- 10_state.md sections 6 and 7 and 00_scope.md section 5: over any carrier, the reset state meets RunInv
(BUF_DEPTH, the buffers, IDX, N, RAW and the open request), every step keeps it from every state that meets
it, and under it no step faults. -/
def Obligations.RunInvariantForEveryCarrier : Prop :=
  ∀ (Num : Type) (C : Carrier Num), RunInv (resetOf C) ∧
    ∀ s : State Num, RunInv s → (∀ t, stepOf C s = .next t → RunInv t) ∧ ¬ faults (stepOf C s)

/-- 20_memory.md section 4 and 00_scope.md section 4 (R73, R8): the six registers have pairwise distinct
addresses, so port operations on different registers transmit different bytes. -/
def Obligations.RegisterAddressesAreDistinct : Prop :=
  ∀ a b : SensorReg, a ≠ b → Config.sensorAddr a ≠ Config.sensorAddr b ∧
    (PortOp.readByte a).transmits ≠ (PortOp.readByte b).transmits ∧
    (∀ m n : Nat, (PortOp.readBytes a m).transmits ≠ (PortOp.readBytes b n).transmits) ∧
    (∀ v w : Byte, (PortOp.write a v).transmits ≠ (PortOp.write b w).transmits)
end

