-- ==== Sys2Proof/Laws/State.lean ====
section
/-! SUPPORT. One lemma per field per update of State, each true by rfl, so that no proof unfolds a record
update. The updates are the named operations of Machine/Ops.lean, Machine/Calibration.lean and
Machine/HostPort.lean. -/
namespace Sys2Proof.Machine

variable {Num : Type}

/-! ### record -/

@[simp] theorem record_scale (e : Event Num) (s : State Num) : (record e s).scale = s.scale := rfl
@[simp] theorem record_off (e : Event Num) (s : State Num) : (record e s).off = s.off := rfl
@[simp] theorem record_acc (e : Event Num) (s : State Num) : (record e s).acc = s.acc := rfl
@[simp] theorem record_raw (e : Event Num) (s : State Num) : (record e s).raw = s.raw := rfl
@[simp] theorem record_sst (e : Event Num) (s : State Num) : (record e s).sst = s.sst := rfl
@[simp] theorem record_traw (e : Event Num) (s : State Num) : (record e s).traw = s.traw := rfl
@[simp] theorem record_temp (e : Event Num) (s : State Num) : (record e s).temp = s.temp := rfl
@[simp] theorem record_frame (e : Event Num) (s : State Num) : (record e s).frame = s.frame := rfl
@[simp] theorem record_err (e : Event Num) (s : State Num) : (record e s).err = s.err := rfl
@[simp] theorem record_buf (e : Event Num) (s : State Num) : (record e s).buf = s.buf := rfl
@[simp] theorem record_ph (e : Event Num) (s : State Num) : (record e s).ph = s.ph := rfl
@[simp] theorem record_idx (e : Event Num) (s : State Num) : (record e s).idx = s.idx := rfl
@[simp] theorem record_n (e : Event Num) (s : State Num) : (record e s).n = s.n := rfl
@[simp] theorem record_ms (e : Event Num) (s : State Num) : (record e s).ms = s.ms := rfl
@[simp] theorem record_bufDepth (e : Event Num) (s : State Num) : (record e s).bufDepth = s.bufDepth := rfl
@[simp] theorem record_env (e : Event Num) (s : State Num) : (record e s).env = s.env := rfl
@[simp] theorem record_trace (e : Event Num) (s : State Num) : (record e s).trace = e :: s.trace := rfl

/-! ### enter -/

@[simp] theorem enter_scale (p : Phase) (s : State Num) : (enter p s).scale = s.scale := rfl
@[simp] theorem enter_off (p : Phase) (s : State Num) : (enter p s).off = s.off := rfl
@[simp] theorem enter_acc (p : Phase) (s : State Num) : (enter p s).acc = s.acc := rfl
@[simp] theorem enter_raw (p : Phase) (s : State Num) : (enter p s).raw = s.raw := rfl
@[simp] theorem enter_sst (p : Phase) (s : State Num) : (enter p s).sst = s.sst := rfl
@[simp] theorem enter_traw (p : Phase) (s : State Num) : (enter p s).traw = s.traw := rfl
@[simp] theorem enter_temp (p : Phase) (s : State Num) : (enter p s).temp = s.temp := rfl
@[simp] theorem enter_frame (p : Phase) (s : State Num) : (enter p s).frame = s.frame := rfl
@[simp] theorem enter_err (p : Phase) (s : State Num) : (enter p s).err = s.err := rfl
@[simp] theorem enter_buf (p : Phase) (s : State Num) : (enter p s).buf = s.buf := rfl
@[simp] theorem enter_ph (p : Phase) (s : State Num) : (enter p s).ph = p := rfl
@[simp] theorem enter_idx (p : Phase) (s : State Num) : (enter p s).idx = s.idx := rfl
@[simp] theorem enter_n (p : Phase) (s : State Num) : (enter p s).n = s.n := rfl
@[simp] theorem enter_ms (p : Phase) (s : State Num) : (enter p s).ms = s.ms := rfl
@[simp] theorem enter_bufDepth (p : Phase) (s : State Num) : (enter p s).bufDepth = s.bufDepth := rfl
@[simp] theorem enter_env (p : Phase) (s : State Num) : (enter p s).env = s.env := rfl
@[simp] theorem enter_trace (p : Phase) (s : State Num) :
    (enter p s).trace = issueEvents p s.ms ++ s.trace := rfl

/-! ### tookTurn -/

@[simp] theorem tookTurn_scale (rest : List Turn) (s : State Num) : (tookTurn rest s).scale = s.scale := rfl
@[simp] theorem tookTurn_off (rest : List Turn) (s : State Num) : (tookTurn rest s).off = s.off := rfl
@[simp] theorem tookTurn_acc (rest : List Turn) (s : State Num) : (tookTurn rest s).acc = s.acc := rfl
@[simp] theorem tookTurn_raw (rest : List Turn) (s : State Num) : (tookTurn rest s).raw = s.raw := rfl
@[simp] theorem tookTurn_sst (rest : List Turn) (s : State Num) : (tookTurn rest s).sst = s.sst := rfl
@[simp] theorem tookTurn_traw (rest : List Turn) (s : State Num) : (tookTurn rest s).traw = s.traw := rfl
@[simp] theorem tookTurn_temp (rest : List Turn) (s : State Num) : (tookTurn rest s).temp = s.temp := rfl
@[simp] theorem tookTurn_frame (rest : List Turn) (s : State Num) : (tookTurn rest s).frame = s.frame := rfl
@[simp] theorem tookTurn_err (rest : List Turn) (s : State Num) : (tookTurn rest s).err = s.err := rfl
@[simp] theorem tookTurn_buf (rest : List Turn) (s : State Num) : (tookTurn rest s).buf = s.buf := rfl
@[simp] theorem tookTurn_ph (rest : List Turn) (s : State Num) : (tookTurn rest s).ph = s.ph := rfl
@[simp] theorem tookTurn_idx (rest : List Turn) (s : State Num) : (tookTurn rest s).idx = s.idx := rfl
@[simp] theorem tookTurn_n (rest : List Turn) (s : State Num) : (tookTurn rest s).n = s.n := rfl
@[simp] theorem tookTurn_ms (rest : List Turn) (s : State Num) : (tookTurn rest s).ms = s.ms := rfl
@[simp] theorem tookTurn_bufDepth (rest : List Turn) (s : State Num) :
    (tookTurn rest s).bufDepth = s.bufDepth := rfl
@[simp] theorem tookTurn_env (rest : List Turn) (s : State Num) :
    (tookTurn rest s).env = { s.env with turns := rest } := rfl
@[simp] theorem tookTurn_trace (rest : List Turn) (s : State Num) : (tookTurn rest s).trace = s.trace := rfl

/-! ### tookCommand -/

@[simp] theorem tookCommand_scale (w : CmdWord) (rest : List CmdWord) (s : State Num) :
    (tookCommand w rest s).scale = s.scale := rfl
@[simp] theorem tookCommand_off (w : CmdWord) (rest : List CmdWord) (s : State Num) :
    (tookCommand w rest s).off = s.off := rfl
@[simp] theorem tookCommand_acc (w : CmdWord) (rest : List CmdWord) (s : State Num) :
    (tookCommand w rest s).acc = s.acc := rfl
@[simp] theorem tookCommand_raw (w : CmdWord) (rest : List CmdWord) (s : State Num) :
    (tookCommand w rest s).raw = s.raw := rfl
@[simp] theorem tookCommand_sst (w : CmdWord) (rest : List CmdWord) (s : State Num) :
    (tookCommand w rest s).sst = s.sst := rfl
@[simp] theorem tookCommand_traw (w : CmdWord) (rest : List CmdWord) (s : State Num) :
    (tookCommand w rest s).traw = s.traw := rfl
@[simp] theorem tookCommand_temp (w : CmdWord) (rest : List CmdWord) (s : State Num) :
    (tookCommand w rest s).temp = s.temp := rfl
@[simp] theorem tookCommand_frame (w : CmdWord) (rest : List CmdWord) (s : State Num) :
    (tookCommand w rest s).frame = s.frame := rfl
@[simp] theorem tookCommand_err (w : CmdWord) (rest : List CmdWord) (s : State Num) :
    (tookCommand w rest s).err = s.err := rfl
@[simp] theorem tookCommand_buf (w : CmdWord) (rest : List CmdWord) (s : State Num) :
    (tookCommand w rest s).buf = s.buf := rfl
@[simp] theorem tookCommand_ph (w : CmdWord) (rest : List CmdWord) (s : State Num) :
    (tookCommand w rest s).ph = s.ph := rfl
@[simp] theorem tookCommand_idx (w : CmdWord) (rest : List CmdWord) (s : State Num) :
    (tookCommand w rest s).idx = s.idx := rfl
@[simp] theorem tookCommand_n (w : CmdWord) (rest : List CmdWord) (s : State Num) :
    (tookCommand w rest s).n = s.n := rfl
@[simp] theorem tookCommand_ms (w : CmdWord) (rest : List CmdWord) (s : State Num) :
    (tookCommand w rest s).ms = s.ms := rfl
@[simp] theorem tookCommand_bufDepth (w : CmdWord) (rest : List CmdWord) (s : State Num) :
    (tookCommand w rest s).bufDepth = s.bufDepth := rfl
@[simp] theorem tookCommand_env (w : CmdWord) (rest : List CmdWord) (s : State Num) :
    (tookCommand w rest s).env = { s.env with cmds := rest } := rfl
@[simp] theorem tookCommand_trace (w : CmdWord) (rest : List CmdWord) (s : State Num) :
    (tookCommand w rest s).trace = .accepted w :: s.trace := rfl

/-! ### tookStatus -/

@[simp] theorem tookStatus_scale (a : PortAnswer Byte) (rest : List (PortAnswer Byte)) (s : State Num) :
    (tookStatus a rest s).scale = s.scale := rfl
@[simp] theorem tookStatus_off (a : PortAnswer Byte) (rest : List (PortAnswer Byte)) (s : State Num) :
    (tookStatus a rest s).off = s.off := rfl
@[simp] theorem tookStatus_acc (a : PortAnswer Byte) (rest : List (PortAnswer Byte)) (s : State Num) :
    (tookStatus a rest s).acc = s.acc := rfl
@[simp] theorem tookStatus_raw (a : PortAnswer Byte) (rest : List (PortAnswer Byte)) (s : State Num) :
    (tookStatus a rest s).raw = s.raw := rfl
@[simp] theorem tookStatus_sst (a : PortAnswer Byte) (rest : List (PortAnswer Byte)) (s : State Num) :
    (tookStatus a rest s).sst = s.sst := rfl
@[simp] theorem tookStatus_traw (a : PortAnswer Byte) (rest : List (PortAnswer Byte)) (s : State Num) :
    (tookStatus a rest s).traw = s.traw := rfl
@[simp] theorem tookStatus_temp (a : PortAnswer Byte) (rest : List (PortAnswer Byte)) (s : State Num) :
    (tookStatus a rest s).temp = s.temp := rfl
@[simp] theorem tookStatus_frame (a : PortAnswer Byte) (rest : List (PortAnswer Byte)) (s : State Num) :
    (tookStatus a rest s).frame = s.frame := rfl
@[simp] theorem tookStatus_err (a : PortAnswer Byte) (rest : List (PortAnswer Byte)) (s : State Num) :
    (tookStatus a rest s).err = s.err := rfl
@[simp] theorem tookStatus_buf (a : PortAnswer Byte) (rest : List (PortAnswer Byte)) (s : State Num) :
    (tookStatus a rest s).buf = s.buf := rfl
@[simp] theorem tookStatus_ph (a : PortAnswer Byte) (rest : List (PortAnswer Byte)) (s : State Num) :
    (tookStatus a rest s).ph = s.ph := rfl
@[simp] theorem tookStatus_idx (a : PortAnswer Byte) (rest : List (PortAnswer Byte)) (s : State Num) :
    (tookStatus a rest s).idx = s.idx := rfl
@[simp] theorem tookStatus_n (a : PortAnswer Byte) (rest : List (PortAnswer Byte)) (s : State Num) :
    (tookStatus a rest s).n = s.n := rfl
@[simp] theorem tookStatus_ms (a : PortAnswer Byte) (rest : List (PortAnswer Byte)) (s : State Num) :
    (tookStatus a rest s).ms = s.ms := rfl
@[simp] theorem tookStatus_bufDepth (a : PortAnswer Byte) (rest : List (PortAnswer Byte)) (s : State Num) :
    (tookStatus a rest s).bufDepth = s.bufDepth := rfl
@[simp] theorem tookStatus_env (a : PortAnswer Byte) (rest : List (PortAnswer Byte)) (s : State Num) :
    (tookStatus a rest s).env = { s.env with statusAns := rest } := rfl
@[simp] theorem tookStatus_trace (a : PortAnswer Byte) (rest : List (PortAnswer Byte)) (s : State Num) :
    (tookStatus a rest s).trace = .answered (.readByte .status) (a.map fun b => [b]) :: s.trace := rfl

/-! ### tookBurst -/

@[simp] theorem tookBurst_scale (a : PortAnswer Frame) (rest : List (PortAnswer Frame)) (s : State Num) :
    (tookBurst a rest s).scale = s.scale := rfl
@[simp] theorem tookBurst_off (a : PortAnswer Frame) (rest : List (PortAnswer Frame)) (s : State Num) :
    (tookBurst a rest s).off = s.off := rfl
@[simp] theorem tookBurst_acc (a : PortAnswer Frame) (rest : List (PortAnswer Frame)) (s : State Num) :
    (tookBurst a rest s).acc = s.acc := rfl
@[simp] theorem tookBurst_raw (a : PortAnswer Frame) (rest : List (PortAnswer Frame)) (s : State Num) :
    (tookBurst a rest s).raw = s.raw := rfl
@[simp] theorem tookBurst_sst (a : PortAnswer Frame) (rest : List (PortAnswer Frame)) (s : State Num) :
    (tookBurst a rest s).sst = s.sst := rfl
@[simp] theorem tookBurst_traw (a : PortAnswer Frame) (rest : List (PortAnswer Frame)) (s : State Num) :
    (tookBurst a rest s).traw = s.traw := rfl
@[simp] theorem tookBurst_temp (a : PortAnswer Frame) (rest : List (PortAnswer Frame)) (s : State Num) :
    (tookBurst a rest s).temp = s.temp := rfl
@[simp] theorem tookBurst_frame (a : PortAnswer Frame) (rest : List (PortAnswer Frame)) (s : State Num) :
    (tookBurst a rest s).frame = s.frame := rfl
@[simp] theorem tookBurst_err (a : PortAnswer Frame) (rest : List (PortAnswer Frame)) (s : State Num) :
    (tookBurst a rest s).err = s.err := rfl
@[simp] theorem tookBurst_buf (a : PortAnswer Frame) (rest : List (PortAnswer Frame)) (s : State Num) :
    (tookBurst a rest s).buf = s.buf := rfl
@[simp] theorem tookBurst_ph (a : PortAnswer Frame) (rest : List (PortAnswer Frame)) (s : State Num) :
    (tookBurst a rest s).ph = s.ph := rfl
@[simp] theorem tookBurst_idx (a : PortAnswer Frame) (rest : List (PortAnswer Frame)) (s : State Num) :
    (tookBurst a rest s).idx = s.idx := rfl
@[simp] theorem tookBurst_n (a : PortAnswer Frame) (rest : List (PortAnswer Frame)) (s : State Num) :
    (tookBurst a rest s).n = s.n := rfl
@[simp] theorem tookBurst_ms (a : PortAnswer Frame) (rest : List (PortAnswer Frame)) (s : State Num) :
    (tookBurst a rest s).ms = s.ms := rfl
@[simp] theorem tookBurst_bufDepth (a : PortAnswer Frame) (rest : List (PortAnswer Frame)) (s : State Num) :
    (tookBurst a rest s).bufDepth = s.bufDepth := rfl
@[simp] theorem tookBurst_env (a : PortAnswer Frame) (rest : List (PortAnswer Frame)) (s : State Num) :
    (tookBurst a rest s).env = { s.env with fifoAns := rest } := rfl
@[simp] theorem tookBurst_trace (a : PortAnswer Frame) (rest : List (PortAnswer Frame)) (s : State Num) :
    (tookBurst a rest s).trace = .answered (.readBytes .fifoData 9) (a.map Vector.toList) :: s.trace := rfl

/-! ### tookTemp -/

@[simp] theorem tookTemp_scale (a : PortAnswer TempBytes) (rest : List (PortAnswer TempBytes)) (s : State Num) :
    (tookTemp a rest s).scale =
      s.scale := rfl
@[simp] theorem tookTemp_off (a : PortAnswer TempBytes) (rest : List (PortAnswer TempBytes)) (s : State Num) :
    (tookTemp a rest s).off =
      s.off := rfl
@[simp] theorem tookTemp_acc (a : PortAnswer TempBytes) (rest : List (PortAnswer TempBytes)) (s : State Num) :
    (tookTemp a rest s).acc =
      s.acc := rfl
@[simp] theorem tookTemp_raw (a : PortAnswer TempBytes) (rest : List (PortAnswer TempBytes)) (s : State Num) :
    (tookTemp a rest s).raw =
      s.raw := rfl
@[simp] theorem tookTemp_sst (a : PortAnswer TempBytes) (rest : List (PortAnswer TempBytes)) (s : State Num) :
    (tookTemp a rest s).sst =
      s.sst := rfl
@[simp] theorem tookTemp_traw (a : PortAnswer TempBytes) (rest : List (PortAnswer TempBytes)) (s : State Num) :
    (tookTemp a rest s).traw =
      s.traw := rfl
@[simp] theorem tookTemp_temp (a : PortAnswer TempBytes) (rest : List (PortAnswer TempBytes)) (s : State Num) :
    (tookTemp a rest s).temp =
      s.temp := rfl
@[simp] theorem tookTemp_frame (a : PortAnswer TempBytes) (rest : List (PortAnswer TempBytes)) (s : State Num) :
    (tookTemp a rest s).frame =
      s.frame := rfl
@[simp] theorem tookTemp_err (a : PortAnswer TempBytes) (rest : List (PortAnswer TempBytes)) (s : State Num) :
    (tookTemp a rest s).err =
      s.err := rfl
@[simp] theorem tookTemp_buf (a : PortAnswer TempBytes) (rest : List (PortAnswer TempBytes)) (s : State Num) :
    (tookTemp a rest s).buf =
      s.buf := rfl
@[simp] theorem tookTemp_ph (a : PortAnswer TempBytes) (rest : List (PortAnswer TempBytes)) (s : State Num) :
    (tookTemp a rest s).ph =
      s.ph := rfl
@[simp] theorem tookTemp_idx (a : PortAnswer TempBytes) (rest : List (PortAnswer TempBytes)) (s : State Num) :
    (tookTemp a rest s).idx =
      s.idx := rfl
@[simp] theorem tookTemp_n (a : PortAnswer TempBytes) (rest : List (PortAnswer TempBytes)) (s : State Num) :
    (tookTemp a rest s).n = s.n := rfl
@[simp] theorem tookTemp_ms (a : PortAnswer TempBytes) (rest : List (PortAnswer TempBytes)) (s : State Num) :
    (tookTemp a rest s).ms =
      s.ms := rfl
@[simp] theorem tookTemp_bufDepth (a : PortAnswer TempBytes) (rest : List (PortAnswer TempBytes)) (s : State Num) :
    (tookTemp a rest s).bufDepth =
      s.bufDepth := rfl
@[simp] theorem tookTemp_env (a : PortAnswer TempBytes) (rest : List (PortAnswer TempBytes)) (s : State Num) :
    (tookTemp a rest s).env =
      { s.env with tempAns := rest } := rfl
@[simp] theorem tookTemp_trace (a : PortAnswer TempBytes) (rest : List (PortAnswer TempBytes)) (s : State Num) :
    (tookTemp a rest s).trace =
      .answered (.readBytes .temperature 2) (a.map Vector.toList) :: s.trace := rfl

/-! ### tookDelay -/

@[simp] theorem tookDelay_scale (k : Nat) (s : State Num) : (tookDelay k s).scale = s.scale := rfl
@[simp] theorem tookDelay_off (k : Nat) (s : State Num) : (tookDelay k s).off = s.off := rfl
@[simp] theorem tookDelay_acc (k : Nat) (s : State Num) : (tookDelay k s).acc = s.acc := rfl
@[simp] theorem tookDelay_raw (k : Nat) (s : State Num) : (tookDelay k s).raw = s.raw := rfl
@[simp] theorem tookDelay_sst (k : Nat) (s : State Num) : (tookDelay k s).sst = s.sst := rfl
@[simp] theorem tookDelay_traw (k : Nat) (s : State Num) : (tookDelay k s).traw = s.traw := rfl
@[simp] theorem tookDelay_temp (k : Nat) (s : State Num) : (tookDelay k s).temp = s.temp := rfl
@[simp] theorem tookDelay_frame (k : Nat) (s : State Num) : (tookDelay k s).frame = s.frame := rfl
@[simp] theorem tookDelay_err (k : Nat) (s : State Num) : (tookDelay k s).err = s.err := rfl
@[simp] theorem tookDelay_buf (k : Nat) (s : State Num) : (tookDelay k s).buf = s.buf := rfl
@[simp] theorem tookDelay_ph (k : Nat) (s : State Num) : (tookDelay k s).ph = s.ph := rfl
@[simp] theorem tookDelay_idx (k : Nat) (s : State Num) : (tookDelay k s).idx = s.idx := rfl
@[simp] theorem tookDelay_n (k : Nat) (s : State Num) : (tookDelay k s).n = s.n := rfl
@[simp] theorem tookDelay_ms (k : Nat) (s : State Num) : (tookDelay k s).ms = s.ms := rfl
@[simp] theorem tookDelay_bufDepth (k : Nat) (s : State Num) : (tookDelay k s).bufDepth = s.bufDepth := rfl
@[simp] theorem tookDelay_env (k : Nat) (s : State Num) :
    (tookDelay k s).env = { s.env with delays := k } := rfl
@[simp] theorem tookDelay_trace (k : Nat) (s : State Num) :
    (tookDelay k s).trace = .delayCompleted :: s.trace := rfl

/-! ### latchOperands -/

@[simp] theorem latchOperands_scale (c : BitVec 16) (m : BitVec 32) (s : State Num) :
    (latchOperands c m s).scale = s.scale := rfl
@[simp] theorem latchOperands_off (c : BitVec 16) (m : BitVec 32) (s : State Num) :
    (latchOperands c m s).off = s.off := rfl
@[simp] theorem latchOperands_acc (c : BitVec 16) (m : BitVec 32) (s : State Num) :
    (latchOperands c m s).acc = s.acc := rfl
@[simp] theorem latchOperands_raw (c : BitVec 16) (m : BitVec 32) (s : State Num) :
    (latchOperands c m s).raw = s.raw := rfl
@[simp] theorem latchOperands_sst (c : BitVec 16) (m : BitVec 32) (s : State Num) :
    (latchOperands c m s).sst = s.sst := rfl
@[simp] theorem latchOperands_traw (c : BitVec 16) (m : BitVec 32) (s : State Num) :
    (latchOperands c m s).traw = s.traw := rfl
@[simp] theorem latchOperands_temp (c : BitVec 16) (m : BitVec 32) (s : State Num) :
    (latchOperands c m s).temp = s.temp := rfl
@[simp] theorem latchOperands_frame (c : BitVec 16) (m : BitVec 32) (s : State Num) :
    (latchOperands c m s).frame = s.frame := rfl
@[simp] theorem latchOperands_err (c : BitVec 16) (m : BitVec 32) (s : State Num) :
    (latchOperands c m s).err = s.err := rfl
@[simp] theorem latchOperands_buf (c : BitVec 16) (m : BitVec 32) (s : State Num) :
    (latchOperands c m s).buf = s.buf := rfl
@[simp] theorem latchOperands_ph (c : BitVec 16) (m : BitVec 32) (s : State Num) :
    (latchOperands c m s).ph = s.ph := rfl
@[simp] theorem latchOperands_idx (c : BitVec 16) (m : BitVec 32) (s : State Num) :
    (latchOperands c m s).idx = s.idx := rfl
@[simp] theorem latchOperands_n (c : BitVec 16) (m : BitVec 32) (s : State Num) :
    (latchOperands c m s).n = c := rfl
@[simp] theorem latchOperands_ms (c : BitVec 16) (m : BitVec 32) (s : State Num) :
    (latchOperands c m s).ms = m := rfl
@[simp] theorem latchOperands_bufDepth (c : BitVec 16) (m : BitVec 32) (s : State Num) :
    (latchOperands c m s).bufDepth = s.bufDepth := rfl
@[simp] theorem latchOperands_env (c : BitVec 16) (m : BitVec 32) (s : State Num) :
    (latchOperands c m s).env = s.env := rfl
@[simp] theorem latchOperands_trace (c : BitVec 16) (m : BitVec 32) (s : State Num) :
    (latchOperands c m s).trace = s.trace := rfl

/-! ### storedSample -/

@[simp] theorem storedSample_scale (s : State Num) : (storedSample s).scale = s.scale := rfl
@[simp] theorem storedSample_off (s : State Num) : (storedSample s).off = s.off := rfl
@[simp] theorem storedSample_acc (s : State Num) : (storedSample s).acc = s.acc := rfl
@[simp] theorem storedSample_raw (s : State Num) : (storedSample s).raw = s.raw := rfl
@[simp] theorem storedSample_sst (s : State Num) : (storedSample s).sst = s.sst := rfl
@[simp] theorem storedSample_traw (s : State Num) : (storedSample s).traw = s.traw := rfl
@[simp] theorem storedSample_temp (s : State Num) : (storedSample s).temp = s.temp := rfl
@[simp] theorem storedSample_frame (s : State Num) : (storedSample s).frame = s.frame := rfl
@[simp] theorem storedSample_err (s : State Num) : (storedSample s).err = s.err := rfl
@[simp] theorem storedSample_buf (s : State Num) :
    (storedSample s).buf = ⟨storeAt s.buf.x s.idx.toNat s.acc.x, storeAt s.buf.y s.idx.toNat s.acc.y,
      storeAt s.buf.z s.idx.toNat s.acc.z⟩ := rfl
@[simp] theorem storedSample_ph (s : State Num) : (storedSample s).ph = s.ph := rfl
@[simp] theorem storedSample_idx (s : State Num) : (storedSample s).idx = s.idx + 1 := rfl
@[simp] theorem storedSample_n (s : State Num) : (storedSample s).n = s.n := rfl
@[simp] theorem storedSample_ms (s : State Num) : (storedSample s).ms = s.ms := rfl
@[simp] theorem storedSample_bufDepth (s : State Num) : (storedSample s).bufDepth = s.bufDepth := rfl
@[simp] theorem storedSample_env (s : State Num) : (storedSample s).env = s.env := rfl
@[simp] theorem storedSample_trace (s : State Num) : (storedSample s).trace = s.trace := rfl

/-! ### latchStatus -/

@[simp] theorem latchStatus_scale (st : Byte) (s : State Num) : (latchStatus st s).scale = s.scale := rfl
@[simp] theorem latchStatus_off (st : Byte) (s : State Num) : (latchStatus st s).off = s.off := rfl
@[simp] theorem latchStatus_acc (st : Byte) (s : State Num) : (latchStatus st s).acc = s.acc := rfl
@[simp] theorem latchStatus_raw (st : Byte) (s : State Num) : (latchStatus st s).raw = s.raw := rfl
@[simp] theorem latchStatus_sst (st : Byte) (s : State Num) : (latchStatus st s).sst = st := rfl
@[simp] theorem latchStatus_traw (st : Byte) (s : State Num) : (latchStatus st s).traw = s.traw := rfl
@[simp] theorem latchStatus_temp (st : Byte) (s : State Num) : (latchStatus st s).temp = s.temp := rfl
@[simp] theorem latchStatus_frame (st : Byte) (s : State Num) : (latchStatus st s).frame = s.frame := rfl
@[simp] theorem latchStatus_err (st : Byte) (s : State Num) : (latchStatus st s).err = s.err := rfl
@[simp] theorem latchStatus_buf (st : Byte) (s : State Num) : (latchStatus st s).buf = s.buf := rfl
@[simp] theorem latchStatus_ph (st : Byte) (s : State Num) : (latchStatus st s).ph = s.ph := rfl
@[simp] theorem latchStatus_idx (st : Byte) (s : State Num) : (latchStatus st s).idx = s.idx := rfl
@[simp] theorem latchStatus_n (st : Byte) (s : State Num) : (latchStatus st s).n = s.n := rfl
@[simp] theorem latchStatus_ms (st : Byte) (s : State Num) : (latchStatus st s).ms = s.ms := rfl
@[simp] theorem latchStatus_bufDepth (st : Byte) (s : State Num) :
    (latchStatus st s).bufDepth = s.bufDepth := rfl
@[simp] theorem latchStatus_env (st : Byte) (s : State Num) : (latchStatus st s).env = s.env := rfl
@[simp] theorem latchStatus_trace (st : Byte) (s : State Num) : (latchStatus st s).trace = s.trace := rfl

/-! ### writeGated -/

@[simp] theorem writeGated_scale (C : Carrier Num) (s : State Num) : (writeGated C s).scale = s.scale := rfl
@[simp] theorem writeGated_off (C : Carrier Num) (s : State Num) : (writeGated C s).off = s.off := rfl
@[simp] theorem writeGated_acc (C : Carrier Num) (s : State Num) :
    (writeGated C s).acc = Triple.const (C.num 0) := rfl
@[simp] theorem writeGated_raw (C : Carrier Num) (s : State Num) :
    (writeGated C s).raw = Triple.const 0 := rfl
@[simp] theorem writeGated_sst (C : Carrier Num) (s : State Num) : (writeGated C s).sst = s.sst := rfl
@[simp] theorem writeGated_traw (C : Carrier Num) (s : State Num) : (writeGated C s).traw = s.traw := rfl
@[simp] theorem writeGated_temp (C : Carrier Num) (s : State Num) : (writeGated C s).temp = s.temp := rfl
@[simp] theorem writeGated_frame (C : Carrier Num) (s : State Num) : (writeGated C s).frame = s.frame := rfl
@[simp] theorem writeGated_err (C : Carrier Num) (s : State Num) : (writeGated C s).err = s.err := rfl
@[simp] theorem writeGated_buf (C : Carrier Num) (s : State Num) : (writeGated C s).buf = s.buf := rfl
@[simp] theorem writeGated_ph (C : Carrier Num) (s : State Num) : (writeGated C s).ph = s.ph := rfl
@[simp] theorem writeGated_idx (C : Carrier Num) (s : State Num) : (writeGated C s).idx = s.idx := rfl
@[simp] theorem writeGated_n (C : Carrier Num) (s : State Num) : (writeGated C s).n = s.n := rfl
@[simp] theorem writeGated_ms (C : Carrier Num) (s : State Num) : (writeGated C s).ms = s.ms := rfl
@[simp] theorem writeGated_bufDepth (C : Carrier Num) (s : State Num) :
    (writeGated C s).bufDepth = s.bufDepth := rfl
@[simp] theorem writeGated_env (C : Carrier Num) (s : State Num) : (writeGated C s).env = s.env := rfl
@[simp] theorem writeGated_trace (C : Carrier Num) (s : State Num) : (writeGated C s).trace = s.trace := rfl

/-! ### writeSample -/

@[simp] theorem writeSample_scale (C : Carrier Num) (d : Frame) (s : State Num) :
    (writeSample C d s).scale = s.scale := rfl
@[simp] theorem writeSample_off (C : Carrier Num) (d : Frame) (s : State Num) :
    (writeSample C d s).off = s.off := rfl
@[simp] theorem writeSample_acc (C : Carrier Num) (d : Frame) (s : State Num) :
    (writeSample C d s).acc = scaleSample C (decodeFrame d) s.scale := rfl
@[simp] theorem writeSample_raw (C : Carrier Num) (d : Frame) (s : State Num) :
    (writeSample C d s).raw = (decodeFrame d).map tc32 := rfl
@[simp] theorem writeSample_sst (C : Carrier Num) (d : Frame) (s : State Num) :
    (writeSample C d s).sst = s.sst := rfl
@[simp] theorem writeSample_traw (C : Carrier Num) (d : Frame) (s : State Num) :
    (writeSample C d s).traw = s.traw := rfl
@[simp] theorem writeSample_temp (C : Carrier Num) (d : Frame) (s : State Num) :
    (writeSample C d s).temp = s.temp := rfl
@[simp] theorem writeSample_frame (C : Carrier Num) (d : Frame) (s : State Num) :
    (writeSample C d s).frame = d := rfl
@[simp] theorem writeSample_err (C : Carrier Num) (d : Frame) (s : State Num) :
    (writeSample C d s).err = s.err := rfl
@[simp] theorem writeSample_buf (C : Carrier Num) (d : Frame) (s : State Num) :
    (writeSample C d s).buf = s.buf := rfl
@[simp] theorem writeSample_ph (C : Carrier Num) (d : Frame) (s : State Num) :
    (writeSample C d s).ph = s.ph := rfl
@[simp] theorem writeSample_idx (C : Carrier Num) (d : Frame) (s : State Num) :
    (writeSample C d s).idx = s.idx := rfl
@[simp] theorem writeSample_n (C : Carrier Num) (d : Frame) (s : State Num) :
    (writeSample C d s).n = s.n := rfl
@[simp] theorem writeSample_ms (C : Carrier Num) (d : Frame) (s : State Num) :
    (writeSample C d s).ms = s.ms := rfl
@[simp] theorem writeSample_bufDepth (C : Carrier Num) (d : Frame) (s : State Num) :
    (writeSample C d s).bufDepth = s.bufDepth := rfl
@[simp] theorem writeSample_env (C : Carrier Num) (d : Frame) (s : State Num) :
    (writeSample C d s).env = s.env := rfl
@[simp] theorem writeSample_trace (C : Carrier Num) (d : Frame) (s : State Num) :
    (writeSample C d s).trace = s.trace := rfl

/-! ### writeTemp -/

@[simp] theorem writeTemp_scale (C : Carrier Num) (t : TempBytes) (s : State Num) :
    (writeTemp C t s).scale = s.scale := rfl
@[simp] theorem writeTemp_off (C : Carrier Num) (t : TempBytes) (s : State Num) :
    (writeTemp C t s).off = s.off := rfl
@[simp] theorem writeTemp_acc (C : Carrier Num) (t : TempBytes) (s : State Num) :
    (writeTemp C t s).acc = s.acc := rfl
@[simp] theorem writeTemp_raw (C : Carrier Num) (t : TempBytes) (s : State Num) :
    (writeTemp C t s).raw = s.raw := rfl
@[simp] theorem writeTemp_sst (C : Carrier Num) (t : TempBytes) (s : State Num) :
    (writeTemp C t s).sst = s.sst := rfl
@[simp] theorem writeTemp_traw (C : Carrier Num) (t : TempBytes) (s : State Num) :
    (writeTemp C t s).traw = tempRaw t[0] t[1] := rfl
@[simp] theorem writeTemp_temp (C : Carrier Num) (t : TempBytes) (s : State Num) :
    (writeTemp C t s).temp = tempC C (tempRaw t[0] t[1]) := rfl
@[simp] theorem writeTemp_frame (C : Carrier Num) (t : TempBytes) (s : State Num) :
    (writeTemp C t s).frame = s.frame := rfl
@[simp] theorem writeTemp_err (C : Carrier Num) (t : TempBytes) (s : State Num) :
    (writeTemp C t s).err = s.err := rfl
@[simp] theorem writeTemp_buf (C : Carrier Num) (t : TempBytes) (s : State Num) :
    (writeTemp C t s).buf = s.buf := rfl
@[simp] theorem writeTemp_ph (C : Carrier Num) (t : TempBytes) (s : State Num) :
    (writeTemp C t s).ph = s.ph := rfl
@[simp] theorem writeTemp_idx (C : Carrier Num) (t : TempBytes) (s : State Num) :
    (writeTemp C t s).idx = s.idx := rfl
@[simp] theorem writeTemp_n (C : Carrier Num) (t : TempBytes) (s : State Num) :
    (writeTemp C t s).n = s.n := rfl
@[simp] theorem writeTemp_ms (C : Carrier Num) (t : TempBytes) (s : State Num) :
    (writeTemp C t s).ms = s.ms := rfl
@[simp] theorem writeTemp_bufDepth (C : Carrier Num) (t : TempBytes) (s : State Num) :
    (writeTemp C t s).bufDepth = s.bufDepth := rfl
@[simp] theorem writeTemp_env (C : Carrier Num) (t : TempBytes) (s : State Num) :
    (writeTemp C t s).env = s.env := rfl
@[simp] theorem writeTemp_trace (C : Carrier Num) (t : TempBytes) (s : State Num) :
    (writeTemp C t s).trace = s.trace := rfl

/-! ### discardBuffers -/

@[simp] theorem discardBuffers_scale (s : State Num) : (discardBuffers s).scale = s.scale := rfl
@[simp] theorem discardBuffers_off (s : State Num) : (discardBuffers s).off = s.off := rfl
@[simp] theorem discardBuffers_acc (s : State Num) : (discardBuffers s).acc = s.acc := rfl
@[simp] theorem discardBuffers_raw (s : State Num) : (discardBuffers s).raw = s.raw := rfl
@[simp] theorem discardBuffers_sst (s : State Num) : (discardBuffers s).sst = s.sst := rfl
@[simp] theorem discardBuffers_traw (s : State Num) : (discardBuffers s).traw = s.traw := rfl
@[simp] theorem discardBuffers_temp (s : State Num) : (discardBuffers s).temp = s.temp := rfl
@[simp] theorem discardBuffers_frame (s : State Num) : (discardBuffers s).frame = s.frame := rfl
@[simp] theorem discardBuffers_err (s : State Num) : (discardBuffers s).err = s.err := rfl
@[simp] theorem discardBuffers_buf (s : State Num) : (discardBuffers s).buf = Triple.const [] := rfl
@[simp] theorem discardBuffers_ph (s : State Num) : (discardBuffers s).ph = s.ph := rfl
@[simp] theorem discardBuffers_idx (s : State Num) : (discardBuffers s).idx = 0 := rfl
@[simp] theorem discardBuffers_n (s : State Num) : (discardBuffers s).n = s.n := rfl
@[simp] theorem discardBuffers_ms (s : State Num) : (discardBuffers s).ms = s.ms := rfl
@[simp] theorem discardBuffers_bufDepth (s : State Num) : (discardBuffers s).bufDepth = s.bufDepth := rfl
@[simp] theorem discardBuffers_env (s : State Num) : (discardBuffers s).env = s.env := rfl
@[simp] theorem discardBuffers_trace (s : State Num) : (discardBuffers s).trace = s.trace := rfl

/-! ### commitCalibration -/

@[simp] theorem commitCalibration_scale (C : Carrier Num) (m : Triple Num) (s : State Num) :
    (commitCalibration C m s).scale = C.div (C.num 1) (calX C m) := rfl
@[simp] theorem commitCalibration_off (C : Carrier Num) (m : Triple Num) (s : State Num) :
    (commitCalibration C m s).off = ⟨m.x, m.y, biasCorrected C m⟩ := rfl
@[simp] theorem commitCalibration_acc (C : Carrier Num) (m : Triple Num) (s : State Num) :
    (commitCalibration C m s).acc = s.acc := rfl
@[simp] theorem commitCalibration_raw (C : Carrier Num) (m : Triple Num) (s : State Num) :
    (commitCalibration C m s).raw = s.raw := rfl
@[simp] theorem commitCalibration_sst (C : Carrier Num) (m : Triple Num) (s : State Num) :
    (commitCalibration C m s).sst = s.sst := rfl
@[simp] theorem commitCalibration_traw (C : Carrier Num) (m : Triple Num) (s : State Num) :
    (commitCalibration C m s).traw = s.traw := rfl
@[simp] theorem commitCalibration_temp (C : Carrier Num) (m : Triple Num) (s : State Num) :
    (commitCalibration C m s).temp = s.temp := rfl
@[simp] theorem commitCalibration_frame (C : Carrier Num) (m : Triple Num) (s : State Num) :
    (commitCalibration C m s).frame = s.frame := rfl
@[simp] theorem commitCalibration_err (C : Carrier Num) (m : Triple Num) (s : State Num) :
    (commitCalibration C m s).err = s.err := rfl
@[simp] theorem commitCalibration_buf (C : Carrier Num) (m : Triple Num) (s : State Num) :
    (commitCalibration C m s).buf = s.buf := rfl
@[simp] theorem commitCalibration_ph (C : Carrier Num) (m : Triple Num) (s : State Num) :
    (commitCalibration C m s).ph = s.ph := rfl
@[simp] theorem commitCalibration_idx (C : Carrier Num) (m : Triple Num) (s : State Num) :
    (commitCalibration C m s).idx = s.idx := rfl
@[simp] theorem commitCalibration_n (C : Carrier Num) (m : Triple Num) (s : State Num) :
    (commitCalibration C m s).n = s.n := rfl
@[simp] theorem commitCalibration_ms (C : Carrier Num) (m : Triple Num) (s : State Num) :
    (commitCalibration C m s).ms = s.ms := rfl
@[simp] theorem commitCalibration_bufDepth (C : Carrier Num) (m : Triple Num) (s : State Num) :
    (commitCalibration C m s).bufDepth = s.bufDepth := rfl
@[simp] theorem commitCalibration_env (C : Carrier Num) (m : Triple Num) (s : State Num) :
    (commitCalibration C m s).env = s.env := rfl
@[simp] theorem commitCalibration_trace (C : Carrier Num) (m : Triple Num) (s : State Num) :
    (commitCalibration C m s).trace = s.trace := rfl

/-! ### complete -/

@[simp] theorem complete_scale (s : State Num) : (complete s).scale = s.scale := rfl
@[simp] theorem complete_off (s : State Num) : (complete s).off = s.off := rfl
@[simp] theorem complete_acc (s : State Num) : (complete s).acc = s.acc := rfl
@[simp] theorem complete_raw (s : State Num) : (complete s).raw = s.raw := rfl
@[simp] theorem complete_sst (s : State Num) : (complete s).sst = s.sst := rfl
@[simp] theorem complete_traw (s : State Num) : (complete s).traw = s.traw := rfl
@[simp] theorem complete_temp (s : State Num) : (complete s).temp = s.temp := rfl
@[simp] theorem complete_frame (s : State Num) : (complete s).frame = s.frame := rfl
@[simp] theorem complete_err (s : State Num) : (complete s).err = .ok := rfl
@[simp] theorem complete_buf (s : State Num) : (complete s).buf = s.buf := rfl
@[simp] theorem complete_ph (s : State Num) : (complete s).ph = .idle := rfl
@[simp] theorem complete_idx (s : State Num) : (complete s).idx = s.idx := rfl
@[simp] theorem complete_n (s : State Num) : (complete s).n = s.n := rfl
@[simp] theorem complete_ms (s : State Num) : (complete s).ms = s.ms := rfl
@[simp] theorem complete_bufDepth (s : State Num) : (complete s).bufDepth = s.bufDepth := rfl
@[simp] theorem complete_env (s : State Num) : (complete s).env = s.env := rfl
@[simp] theorem complete_trace (s : State Num) : (complete s).trace = .completed .ok :: s.trace := rfl

/-! ### raise -/

@[simp] theorem raise_scale (e : ErrCode) (s : State Num) : (raise e s).scale = s.scale := rfl
@[simp] theorem raise_off (e : ErrCode) (s : State Num) : (raise e s).off = s.off := rfl
@[simp] theorem raise_acc (e : ErrCode) (s : State Num) : (raise e s).acc = s.acc := rfl
@[simp] theorem raise_raw (e : ErrCode) (s : State Num) : (raise e s).raw = s.raw := rfl
@[simp] theorem raise_sst (e : ErrCode) (s : State Num) : (raise e s).sst = s.sst := rfl
@[simp] theorem raise_traw (e : ErrCode) (s : State Num) : (raise e s).traw = s.traw := rfl
@[simp] theorem raise_temp (e : ErrCode) (s : State Num) : (raise e s).temp = s.temp := rfl
@[simp] theorem raise_frame (e : ErrCode) (s : State Num) : (raise e s).frame = s.frame := rfl
@[simp] theorem raise_err (e : ErrCode) (s : State Num) : (raise e s).err = e := rfl
@[simp] theorem raise_buf (e : ErrCode) (s : State Num) :
    (raise e s).buf = if s.ph.isCal then Triple.const [] else s.buf := rfl
@[simp] theorem raise_ph (e : ErrCode) (s : State Num) : (raise e s).ph = .idle := rfl
@[simp] theorem raise_idx (e : ErrCode) (s : State Num) :
    (raise e s).idx = if s.ph.isCal then 0 else s.idx := rfl
@[simp] theorem raise_n (e : ErrCode) (s : State Num) : (raise e s).n = s.n := rfl
@[simp] theorem raise_ms (e : ErrCode) (s : State Num) : (raise e s).ms = s.ms := rfl
@[simp] theorem raise_bufDepth (e : ErrCode) (s : State Num) : (raise e s).bufDepth = s.bufDepth := rfl
@[simp] theorem raise_env (e : ErrCode) (s : State Num) : (raise e s).env = s.env := rfl
@[simp] theorem raise_trace (e : ErrCode) (s : State Num) :
    (raise e s).trace = .completed e :: s.trace := rfl

/-! ### hardReset -/

@[simp] theorem hardReset_scale (C : Carrier Num) (s : State Num) :
    (hardReset C s).scale = (resetOf C).scale := rfl
@[simp] theorem hardReset_off (C : Carrier Num) (s : State Num) :
    (hardReset C s).off = (resetOf C).off := rfl
@[simp] theorem hardReset_acc (C : Carrier Num) (s : State Num) :
    (hardReset C s).acc = (resetOf C).acc := rfl
@[simp] theorem hardReset_raw (C : Carrier Num) (s : State Num) :
    (hardReset C s).raw = (resetOf C).raw := rfl
@[simp] theorem hardReset_sst (C : Carrier Num) (s : State Num) :
    (hardReset C s).sst = (resetOf C).sst := rfl
@[simp] theorem hardReset_traw (C : Carrier Num) (s : State Num) :
    (hardReset C s).traw = (resetOf C).traw := rfl
@[simp] theorem hardReset_temp (C : Carrier Num) (s : State Num) :
    (hardReset C s).temp = (resetOf C).temp := rfl
@[simp] theorem hardReset_frame (C : Carrier Num) (s : State Num) :
    (hardReset C s).frame = (resetOf C).frame := rfl
@[simp] theorem hardReset_err (C : Carrier Num) (s : State Num) :
    (hardReset C s).err = (resetOf C).err := rfl
@[simp] theorem hardReset_buf (C : Carrier Num) (s : State Num) :
    (hardReset C s).buf = (resetOf C).buf := rfl
@[simp] theorem hardReset_ph (C : Carrier Num) (s : State Num) : (hardReset C s).ph = (resetOf C).ph := rfl
@[simp] theorem hardReset_idx (C : Carrier Num) (s : State Num) :
    (hardReset C s).idx = (resetOf C).idx := rfl
@[simp] theorem hardReset_n (C : Carrier Num) (s : State Num) : (hardReset C s).n = (resetOf C).n := rfl
@[simp] theorem hardReset_ms (C : Carrier Num) (s : State Num) : (hardReset C s).ms = (resetOf C).ms := rfl
@[simp] theorem hardReset_bufDepth (C : Carrier Num) (s : State Num) :
    (hardReset C s).bufDepth = s.bufDepth := rfl
@[simp] theorem hardReset_env (C : Carrier Num) (s : State Num) :
    (hardReset C s).env = abandonRequest s.ph s.env := rfl
@[simp] theorem hardReset_trace (C : Carrier Num) (s : State Num) :
    (hardReset C s).trace = .hardReset :: s.trace := rfl

/-! ### presentWord -/

@[simp] theorem presentWord_scale (w : CmdWord) (s : State Num) : (presentWord w s).scale = s.scale := rfl
@[simp] theorem presentWord_off (w : CmdWord) (s : State Num) : (presentWord w s).off = s.off := rfl
@[simp] theorem presentWord_acc (w : CmdWord) (s : State Num) : (presentWord w s).acc = s.acc := rfl
@[simp] theorem presentWord_raw (w : CmdWord) (s : State Num) : (presentWord w s).raw = s.raw := rfl
@[simp] theorem presentWord_sst (w : CmdWord) (s : State Num) : (presentWord w s).sst = s.sst := rfl
@[simp] theorem presentWord_traw (w : CmdWord) (s : State Num) : (presentWord w s).traw = s.traw := rfl
@[simp] theorem presentWord_temp (w : CmdWord) (s : State Num) : (presentWord w s).temp = s.temp := rfl
@[simp] theorem presentWord_frame (w : CmdWord) (s : State Num) : (presentWord w s).frame = s.frame := rfl
@[simp] theorem presentWord_err (w : CmdWord) (s : State Num) : (presentWord w s).err = s.err := rfl
@[simp] theorem presentWord_buf (w : CmdWord) (s : State Num) : (presentWord w s).buf = s.buf := rfl
@[simp] theorem presentWord_ph (w : CmdWord) (s : State Num) : (presentWord w s).ph = .idle := rfl
@[simp] theorem presentWord_idx (w : CmdWord) (s : State Num) : (presentWord w s).idx = s.idx := rfl
@[simp] theorem presentWord_n (w : CmdWord) (s : State Num) : (presentWord w s).n = s.n := rfl
@[simp] theorem presentWord_ms (w : CmdWord) (s : State Num) : (presentWord w s).ms = s.ms := rfl
@[simp] theorem presentWord_bufDepth (w : CmdWord) (s : State Num) :
    (presentWord w s).bufDepth = s.bufDepth := rfl
@[simp] theorem presentWord_env (w : CmdWord) (s : State Num) :
    (presentWord w s).env = { s.env with turns := .ready :: s.env.turns, cmds := w :: s.env.cmds } := rfl
@[simp] theorem presentWord_trace (w : CmdWord) (s : State Num) : (presentWord w s).trace = s.trace := rfl

/-! ### The reset state -/

theorem reset_eq : State.reset = resetOf Carrier.exact := rfl

@[simp] theorem resetOf_scale (C : Carrier Num) : (resetOf C).scale = C.num Config.scaleDefault := rfl
@[simp] theorem resetOf_off (C : Carrier Num) : (resetOf C).off = Triple.const (C.num 0) := rfl
@[simp] theorem resetOf_acc (C : Carrier Num) : (resetOf C).acc = Triple.const (C.num 0) := rfl
@[simp] theorem resetOf_raw (C : Carrier Num) : (resetOf C).raw = Triple.const 0 := rfl
@[simp] theorem resetOf_sst (C : Carrier Num) : (resetOf C).sst = 0x00 := rfl
@[simp] theorem resetOf_traw (C : Carrier Num) : (resetOf C).traw = 0x0000 := rfl
@[simp] theorem resetOf_temp (C : Carrier Num) : (resetOf C).temp = C.num 0 := rfl
@[simp] theorem resetOf_frame (C : Carrier Num) : (resetOf C).frame = Vector.replicate 9 0x00 := rfl
@[simp] theorem resetOf_err (C : Carrier Num) : (resetOf C).err = .ok := rfl
@[simp] theorem resetOf_buf (C : Carrier Num) : (resetOf C).buf = Triple.const [] := rfl
@[simp] theorem resetOf_ph (C : Carrier Num) : (resetOf C).ph = .idle := rfl
@[simp] theorem resetOf_idx (C : Carrier Num) : (resetOf C).idx = 0 := rfl
@[simp] theorem resetOf_n (C : Carrier Num) : (resetOf C).n = 0 := rfl
@[simp] theorem resetOf_ms (C : Carrier Num) : (resetOf C).ms = 0 := rfl
@[simp] theorem resetOf_bufDepth (C : Carrier Num) : (resetOf C).bufDepth = Config.bufDepthDefault := rfl
@[simp] theorem resetOf_env (C : Carrier Num) : (resetOf C).env = Env.none := rfl
@[simp] theorem resetOf_trace (C : Carrier Num) : (resetOf C).trace = [] := rfl

end Sys2Proof.Machine
end

