-- ==== Sys2Proof/Laws/Ops.lean ====
section
/-! SUPPORT. One lemma per shared operation that says once everything it can do; the provers cite these
instead of unfolding the operations. -/
namespace Sys2Proof.Machine

variable {Num : Type} {C : Carrier Num}

/-! ### The default carrier: its operations are those of the rationals -/

@[simp] theorem exact_num (k : Int) : Carrier.exact.num k = (k : Rat) := rfl
@[simp] theorem exact_dec (q : Rat) : Carrier.exact.dec q = q := rfl
@[simp] theorem exact_add (a b : NumVal) : Carrier.exact.add a b = a + b := rfl
@[simp] theorem exact_sub (a b : NumVal) : Carrier.exact.sub a b = a - b := rfl
@[simp] theorem exact_mul (a b : NumVal) : Carrier.exact.mul a b = a * b := rfl
@[simp] theorem exact_div (a b : NumVal) : Carrier.exact.div a b = a / b := rfl

@[simp] theorem exact_isZero (q : NumVal) : Carrier.exact.isZero q = true ↔ q = 0 := decide_eq_true_iff

theorem exact_isZero_false {q : NumVal} : Carrier.exact.isZero q = false ↔ q ≠ 0 := decide_eq_false_iff_not

/-! ### The sensor's addresses -/

/-- The six addresses are pairwise distinct (00_scope.md R8, 20_memory.md R73), whatever the open choice. -/
theorem addrDistinct : Config.AddrDistinct := by
  intro a b h
  cases a <;> cases b <;> first | rfl | exact absurd (Config.addrChoice.injective h) (by decide)

/-! ### Answers, words and turns -/

@[simp] theorem PortAnswer_map_busError {α β : Type} (f : α → β) :
    (PortAnswer.busError : PortAnswer α).map f = .busError := rfl

@[simp] theorem PortAnswer_map_bytes {α β : Type} (f : α → β) (a : α) :
    (PortAnswer.bytes a).map f = .bytes (f a) := rfl

/-- The status answer taken, and the state it leaves. -/
theorem takeStatus_some {s t : State Num} {a : PortAnswer Byte} :
    takeStatus s = some (a, t) ↔ ∃ rest, s.env.statusAns = a :: rest ∧ t = tookStatus a rest s := by
  unfold takeStatus
  cases h : s.env.statusAns <;> simp [eq_comm]
  rintro rfl
  rfl

theorem takeStatus_none {s : State Num} : takeStatus s = none ↔ s.env.statusAns = [] := by
  unfold takeStatus
  cases h : s.env.statusAns <;> simp

/-- The burst answer taken, and the state it leaves. -/
theorem takeBurst_some {s t : State Num} {a : PortAnswer Frame} :
    takeBurst s = some (a, t) ↔ ∃ rest, s.env.fifoAns = a :: rest ∧ t = tookBurst a rest s := by
  unfold takeBurst
  cases h : s.env.fifoAns <;> simp [eq_comm]
  rintro rfl
  rfl

theorem takeBurst_none {s : State Num} : takeBurst s = none ↔ s.env.fifoAns = [] := by
  unfold takeBurst
  cases h : s.env.fifoAns <;> simp

/-- The temperature answer taken, and the state it leaves. -/
theorem takeTemp_some {s t : State Num} {a : PortAnswer TempBytes} :
    takeTemp s = some (a, t) ↔ ∃ rest, s.env.tempAns = a :: rest ∧ t = tookTemp a rest s := by
  unfold takeTemp
  cases h : s.env.tempAns <;> simp [eq_comm]
  rintro rfl
  rfl

theorem takeTemp_none {s : State Num} : takeTemp s = none ↔ s.env.tempAns = [] := by
  unfold takeTemp
  cases h : s.env.tempAns <;> simp

/-- The delay completion taken, and the state it leaves. -/
theorem takeDelay_some {s t : State Num} :
    takeDelay s = some t ↔ ∃ k, s.env.delays = k + 1 ∧ t = tookDelay k s := by
  unfold takeDelay
  cases h : s.env.delays <;> simp [eq_comm]

theorem takeDelay_none {s : State Num} : takeDelay s = none ↔ s.env.delays = 0 := by
  unfold takeDelay
  cases h : s.env.delays <;> simp

/-- The command word taken, and the state it leaves. -/
theorem takeCommand_some {s t : State Num} {w : CmdWord} :
    takeCommand s = some (w, t) ↔ ∃ rest, s.env.cmds = w :: rest ∧ t = tookCommand w rest s := by
  unfold takeCommand
  cases h : s.env.cmds <;> simp [eq_comm]
  rintro rfl
  rfl

theorem takeCommand_none {s : State Num} : takeCommand s = none ↔ s.env.cmds = [] := by
  unfold takeCommand
  cases h : s.env.cmds <;> simp

/-- Taking a turn changes the list of turns and nothing else. -/
theorem takeTurn_snd (s : State Num) : (takeTurn s).2 = tookTurn s.env.turns.tail s := by
  unfold takeTurn
  split
  · next h => rw [h, List.tail_nil, tookTurn, ← h]
  · next h => rw [h, List.tail_cons]

/-- Whose turn it is: the head of the list, `ready` when there is none. -/
theorem takeTurn_fst (s : State Num) : (takeTurn s).1 = s.env.turns.head?.getD .ready := by
  unfold takeTurn
  split <;> simp_all

/-! ### The sample read -/

/-- The status step on each kind of input. -/
theorem statusStep_nil {s : State Num} (h : s.env.statusAns = []) : statusStep C s = .waiting := by
  simp [statusStep, takeStatus, h]

theorem statusStep_busError {s : State Num} {rest : List (PortAnswer Byte)}
    (h : s.env.statusAns = .busError :: rest) :
    statusStep C s = .failed (tookStatus .busError rest s) := by
  simp [statusStep, takeStatus, h]

theorem statusStep_clear {s : State Num} {st : Byte} {rest : List (PortAnswer Byte)}
    (h : s.env.statusAns = .bytes st :: rest) (hd : dataReady st = false) :
    statusStep C s = .gated (writeGated C (latchStatus st (tookStatus (.bytes st) rest s))) := by
  simp [statusStep, takeStatus, h, hd]

theorem statusStep_set {s : State Num} {st : Byte} {rest : List (PortAnswer Byte)}
    (h : s.env.statusAns = .bytes st :: rest) (hd : dataReady st = true) :
    statusStep C s = .ready (latchStatus st (tookStatus (.bytes st) rest s)) := by
  simp [statusStep, takeStatus, h, hd]

/-- The burst step on each kind of input. -/
theorem burstStep_nil {s : State Num} (h : s.env.fifoAns = []) : burstStep C s = .waiting := by
  simp [burstStep, takeBurst, h]

theorem burstStep_busError {s : State Num} {rest : List (PortAnswer Frame)}
    (h : s.env.fifoAns = .busError :: rest) :
    burstStep C s = .failed (tookBurst .busError rest s) := by
  simp [burstStep, takeBurst, h]

theorem burstStep_bytes {s : State Num} {d : Frame} {rest : List (PortAnswer Frame)}
    (h : s.env.fifoAns = .bytes d :: rest) :
    burstStep C s = .sampled (writeSample C d (tookBurst (.bytes d) rest s)) := by
  simp [burstStep, takeBurst, h]

/-- A status step fails only on a BusError answer. -/
theorem statusStep_failed {s t : State Num} (h : statusStep C s = .failed t) :
    ∃ rest, s.env.statusAns = .busError :: rest ∧ t = tookStatus .busError rest s := by
  unfold statusStep at h
  split at h
  · simp at h
  · next h1 => cases h; exact takeStatus_some.mp h1
  · split at h <;> simp at h

/-- A gated status step latches a byte with bit 0 clear and writes the zero vector. -/
theorem statusStep_gated {s t : State Num} (h : statusStep C s = .gated t) :
    ∃ st rest, s.env.statusAns = .bytes st :: rest ∧ dataReady st = false ∧
      t = writeGated C (latchStatus st (tookStatus (.bytes st) rest s)) := by
  unfold statusStep at h
  split at h
  · simp at h
  · simp at h
  · next st s1 h1 =>
    split at h
    · simp at h
    · next hr =>
      cases h
      obtain ⟨rest, h2, rfl⟩ := takeStatus_some.mp h1
      exact ⟨st, rest, h2, by simpa using hr, rfl⟩

/-- A ready status step latches a byte with bit 0 set. -/
theorem statusStep_ready {s t : State Num} (h : statusStep C s = .ready t) :
    ∃ st rest, s.env.statusAns = .bytes st :: rest ∧ dataReady st = true ∧
      t = latchStatus st (tookStatus (.bytes st) rest s) := by
  unfold statusStep at h
  split at h
  · simp at h
  · simp at h
  · next st s1 h1 =>
    split at h
    · next hr =>
      cases h
      obtain ⟨rest, h2, rfl⟩ := takeStatus_some.mp h1
      exact ⟨st, rest, h2, hr, rfl⟩
    · simp at h

/-- A burst step fails only on a BusError answer. -/
theorem burstStep_failed {s t : State Num} (h : burstStep C s = .failed t) :
    ∃ rest, s.env.fifoAns = .busError :: rest ∧ t = tookBurst .busError rest s := by
  unfold burstStep at h
  split at h
  · simp at h
  · next h1 => cases h; exact takeBurst_some.mp h1
  · simp at h

/-- A burst step that samples writes the nine bytes' decode. -/
theorem burstStep_sampled {s t : State Num} (h : burstStep C s = .sampled t) :
    ∃ d rest, s.env.fifoAns = .bytes d :: rest ∧
      t = writeSample C d (tookBurst (.bytes d) rest s) := by
  unfold burstStep at h
  split at h
  · simp at h
  · simp at h
  · next d s1 h1 =>
    cases h
    obtain ⟨rest, h2, rfl⟩ := takeBurst_some.mp h1
    exact ⟨d, rest, h2, rfl⟩

/-! ### The buffers -/

/-- The sample store answers exactly when entry IDX belongs to the run and to the buffers. -/
theorem storeSample_some {s t : State Num} :
    storeSample s = some t ↔
      s.idx.toNat < s.n.toNat ∧ s.idx.toNat < s.bufDepth ∧ t = storedSample s := by
  unfold storeSample
  split <;> simp_all [eq_comm]

/-- A sample that can be stored is stored, and the delay is requested. -/
theorem storeAndWait_eq {s : State Num} (hn : s.idx.toNat < s.n.toNat) (hb : s.idx.toNat < s.bufDepth) :
    storeAndWait s = .next (enter .calWait (storedSample s)) := by
  simp [storeAndWait, storeSample, hn, hb]

/-- A sample that cannot be stored faults. -/
theorem storeAndWait_fault {s : State Num} (h : ¬ (s.idx.toNat < s.n.toNat ∧ s.idx.toNat < s.bufDepth)) :
    storeAndWait s = .fault .sampleStoreOutOfRange := by
  unfold storeAndWait storeSample
  rw [if_neg h]

/-- IDX counts up without wrapping when a sample is stored, because it is below N. -/
theorem idx_succ_toNat {s : State Num} (h : s.idx.toNat < s.n.toNat) :
    (s.idx + 1).toNat = s.idx.toNat + 1 := by
  have := s.n.isLt
  rw [BitVec.toNat_add]
  simp
  omega

theorem storeAt_length {l : List Num} {i : Nat} (v : Num) (h : l.length = i) :
    (storeAt l i v).length = i + 1 := by
  simp [storeAt, h]

/-- On a buffer in canonical form the store appends. -/
theorem storeAt_append {l : List Num} {i : Nat} (v : Num) (h : l.length = i) :
    storeAt l i v = l ++ [v] := by
  simp [storeAt, ← h]

/-- There are means exactly when each axis has one. -/
theorem calMeans_some {s : State Num} {m : Triple Num} :
    calMeans C s = some m ↔ calMean C s.buf.x s.idx s.n = some m.x ∧
      calMean C s.buf.y s.idx s.n = some m.y ∧ calMean C s.buf.z s.idx s.n = some m.z := by
  unfold calMeans
  split
  · next hx hy hz =>
    constructor
    · intro h
      obtain rfl : _ = m := by simpa using h
      exact ⟨hx, hy, hz⟩
    · rintro ⟨h1, h2, h3⟩
      rw [hx] at h1; rw [hy] at h2; rw [hz] at h3
      simp only [Option.some.injEq] at h1 h2 h3
      subst h1 h2 h3
      rfl
  · next h =>
    constructor
    · simp
    · rintro ⟨h1, h2, h3⟩
      exact absurd h3 (h _ _ _ h1 h2)

end Sys2Proof.Machine
end

