-- ==== Sys2Proof/Laws/Buffers.lean ====
section
/-! SUPPORT. The canonical form of the calibration buffers: it holds at reset, and every operation over
them keeps it (10_state.md R33, R34). -/
namespace Sys2Proof.Machine

variable {Num : Type} {C : Carrier Num}

/-- The canonical form, in lengths. -/
theorem buffersWf_iff {b : Triple (List Num)} {idx : BitVec 16} :
    buffersWf b idx = true ↔
      b.x.length = idx.toNat ∧ b.y.length = idx.toNat ∧ b.z.length = idx.toNat := by
  simp [buffersWf]

theorem reset_buffersWf (C : Carrier Num) : buffersWf (resetOf C).buf (resetOf C).idx = true := rfl

theorem discardBuffers_wf (s : State Num) :
    buffersWf (discardBuffers s).buf (discardBuffers s).idx = true := by
  simp [buffersWf, Triple.const]

theorem storeSample_wf {s t : State Num} (hw : buffersWf s.buf s.idx = true)
    (h : storeSample s = some t) : buffersWf t.buf t.idx = true := by
  obtain ⟨hn, _, rfl⟩ := storeSample_some.mp h
  obtain ⟨hx, hy, hz⟩ := buffersWf_iff.mp hw
  exact buffersWf_iff.mpr (by
    rw [storedSample_idx, idx_succ_toNat hn]
    exact ⟨storeAt_length _ hx, storeAt_length _ hy, storeAt_length _ hz⟩)

theorem raise_wf {s : State Num} (e : ErrCode) (hw : buffersWf s.buf s.idx = true) :
    buffersWf (raise e s).buf (raise e s).idx = true := by
  simp only [raise_buf, raise_idx]
  split
  · simp [buffersWf, Triple.const]
  · exact hw

theorem hardReset_wf (C : Carrier Num) (s : State Num) : buffersWf (hardReset C s).buf (hardReset C s).idx = true :=
  reset_buffersWf C

/-- Where IDX stands, phase by phase. -/
theorem idxFits_no_run {s : State Num} (h : s.ph = .idle ∨ s.ph = .accSt ∨ s.ph = .accFifo ∨ s.ph = .tmpRd) :
    idxFits s = true ↔ s.idx.toNat = 0 := by
  rcases h with h | h | h | h <;> simp [idxFits, h]

theorem idxFits_sampling {s : State Num} (h : s.ph = .calSt ∨ s.ph = .calFifo) :
    idxFits s = true ↔ s.idx.toNat < s.n.toNat := by
  rcases h with h | h <;> simp [idxFits, h]

theorem idxFits_calWait {s : State Num} (h : s.ph = .calWait) :
    idxFits s = true ↔ 1 ≤ s.idx.toNat ∧ s.idx.toNat ≤ s.n.toNat := by
  simp [idxFits, h]

theorem idxFits_calFin {s : State Num} (h : s.ph = .calFin) : idxFits s = true ↔ s.idx.toNat = s.n.toNat := by
  simp [idxFits, h]

/-- Adding a list's values to a start value, in increasing order, is adding their sum. -/
theorem foldl_add_eq_add_sum (l : List NumVal) (v : NumVal) : l.foldl (· + ·) v = v + l.sum := by
  induction l generalizing v with
  | nil => simp
  | cons a l ih => simp [ih, add_assoc]

end Sys2Proof.Machine
end

