-- ==== Sys2Proof/Laws/PerInstr.lean ====
section
/-! SUPPORT. Statements about every command as syntax, one lemma per constructor of Instr. -/
namespace Sys2Proof.Laws

namespace Fields

/-- The fixed fields of a command's word: OPC is one of the three codes and RSV is zero (30_encoding.md
R90, R94). -/
def Statement (i : Instr) : Prop :=
  (opcOf (encode i) = 0x01 ∨ opcOf (encode i) = 0x02 ∨ opcOf (encode i) = 0x03) ∧
    rsvOf (encode i) = 0

theorem rdacc : Statement .rdacc := by
  unfold Statement; decide

theorem rdtemp : Statement .rdtemp := by
  unfold Statement; decide

theorem calib (count : BitVec 16) (interval : BitVec 32) : Statement (.calib count interval) := by
  constructor
  · refine .inr (.inr ?_)
    apply BitVec.eq_of_getLsbD_eq
    intro j hj
    simp only [opcOf, encode, BitVec.getLsbD_extractLsb', BitVec.getLsbD_append]
    have h1 : ¬ 56 + j < 32 := by omega
    have h2 : ¬ 56 + j - 32 < 16 := by omega
    have h3 : ¬ 56 + j - 32 - 16 < 8 := by omega
    have h4 : 56 + j - 32 - 16 - 8 = j := by omega
    simp [h1, h2, h3, h4, hj]
  · apply BitVec.eq_of_getLsbD_eq
    intro j hj
    simp only [rsvOf, encode, BitVec.getLsbD_extractLsb', BitVec.getLsbD_append]
    have h1 : ¬ 48 + j < 32 := by omega
    have h2 : ¬ 48 + j - 32 < 16 := by omega
    have h3 : 48 + j - 32 - 16 < 8 := by omega
    simp [h1, h2, h3]

end Fields
end Sys2Proof.Laws
end

