-- ==== Sys2Proof/Laws/Run.lean ====
section
/-! SUPPORT. Runs of the machine: how they unfold, how they compose, and the induction over them, once. -/
namespace Sys2Proof.Machine

theorem run_zero (s : State) : Sys2Proof.core.run 0 s = .next s := rfl

/-- A run of `k + 1` steps is one step and then `k`. -/
theorem run_succ_next {s t : State} (k : Nat) (h : step s = .next t) :
    Sys2Proof.core.run (k + 1) s = Sys2Proof.core.run k t := by
  have e := Host.Core.run.eq_2 Sys2Proof.core s k
  rw [show Sys2Proof.core.step s = .next t from h] at e
  exact e

theorem run_succ_fault {s : State} {r : Fault} (k : Nat) (h : step s = .fault r) :
    Sys2Proof.core.run (k + 1) s = .fault r := by
  have e := Host.Core.run.eq_2 Sys2Proof.core s k
  rw [show Sys2Proof.core.step s = .fault r from h] at e
  exact e

theorem run_succ_refused {s : State} {r : Refusal} (k : Nat) (h : step s = .refused r) :
    Sys2Proof.core.run (k + 1) s = .refused r := by
  have e := Host.Core.run.eq_2 Sys2Proof.core s k
  rw [show Sys2Proof.core.step s = .refused r from h] at e
  exact e

/-- Runs compose. -/
theorem run_add {s t : State} (k j : Nat) (h : Sys2Proof.core.run k s = .next t) :
    Sys2Proof.core.run (k + j) s = Sys2Proof.core.run j t := by
  induction k generalizing s with
  | zero =>
    have e : (.next s : Outcome) = .next t := h
    cases e
    rw [Nat.zero_add]
  | succ k ih =>
    rw [Nat.add_right_comm]
    cases hs : step s with
    | next u => rw [run_succ_next _ hs] at h ⊢; exact ih h
    | fault r => rw [run_succ_fault _ hs] at h; cases h
    | refused r => rw [run_succ_refused _ hs] at h; cases h

/-- A property that every step keeps holds after every run. -/
theorem run_keeps {P : State → Prop} (hstep : ∀ s t, P s → step s = .next t → P t) {s t : State} (k : Nat)
    (hs : P s) (h : Sys2Proof.core.run k s = .next t) : P t := by
  induction k generalizing s with
  | zero =>
    have e : (.next s : Outcome) = .next t := h
    cases e
    exact hs
  | succ k ih =>
    cases hq : step s with
    | next u => rw [run_succ_next _ hq] at h; exact ih (hstep _ _ hs hq) h
    | fault r => rw [run_succ_fault _ hq] at h; cases h
    | refused r => rw [run_succ_refused _ hq] at h; cases h

end Sys2Proof.Machine
end

