-- ==== Sys2Proof/Laws/Step.lean ====
section
/-! SUPPORT. What one step can do, said once: `step_cases` turns "step answers next t" into one of the
cases of StepCase, each with its guard and with t written by the named operations. -/
namespace Sys2Proof.Machine

variable {Num : Type} {C : Carrier Num}

/-- What a step can do, hardware reset apart, to the state `s` it starts from once the turn has been taken:
every next state, with its guards (30_encoding.md R92; 40_sample_decode.md R119, R120; 41_temperature.md R143;
42_calibration.md R155 to R162; 10_state.md R40, R41). -/
inductive StepCase (C : Carrier Num) (s : State Num) : State Num → Prop where
  /-- No agent moved, or the awaited one had nothing to give. -/
  | stay : StepCase C s s
  | hostRead (k : Nat) (v : HostValue Num) : hostRegister k s = some v → (s.ph = .idle ∨ k = 0) →
      StepCase C s (record (.hostRead k v) s)
  | acceptRdacc (w : CmdWord) (rest : List CmdWord) : s.ph = .idle → s.env.cmds = w :: rest →
      decode w = .command .rdacc → StepCase C s (enter .accSt (tookCommand w rest s))
  | acceptRdtemp (w : CmdWord) (rest : List CmdWord) : s.ph = .idle → s.env.cmds = w :: rest →
      decode w = .command .rdtemp → StepCase C s (enter .tmpRd (tookCommand w rest s))
  | acceptCalib (w : CmdWord) (rest : List CmdWord) (c : BitVec 16) (m : BitVec 32) : s.ph = .idle →
      s.env.cmds = w :: rest → decode w = .command (.calib c m) →
      calibAdmissible s.bufDepth c = true →
      StepCase C s (enter .calSt (discardBuffers (latchOperands c m (tookCommand w rest s))))
  | refuseWord (w : CmdWord) (rest : List CmdWord) : s.ph = .idle → s.env.cmds = w :: rest →
      (∀ i, decode w = .command i → i.wellFormed s.bufDepth = false) →
      StepCase C s (raise .invalidArgument (tookCommand w rest s))
  | statusBusError (rest : List (PortAnswer Byte)) : s.ph = .accSt ∨ s.ph = .calSt →
      s.env.statusAns = .busError :: rest →
      StepCase C s (raise .busError (tookStatus .busError rest s))
  | burstBusError (rest : List (PortAnswer Frame)) : s.ph = .accFifo ∨ s.ph = .calFifo →
      s.env.fifoAns = .busError :: rest →
      StepCase C s (raise .busError (tookBurst .busError rest s))
  | tempBusError (rest : List (PortAnswer TempBytes)) : s.ph = .tmpRd →
      s.env.tempAns = .busError :: rest → StepCase C s (raise .busError (tookTemp .busError rest s))
  | accGated (st : Byte) (rest : List (PortAnswer Byte)) : s.ph = .accSt →
      s.env.statusAns = .bytes st :: rest → dataReady st = false →
      StepCase C s (complete (writeGated C (latchStatus st (tookStatus (.bytes st) rest s))))
  | accReady (st : Byte) (rest : List (PortAnswer Byte)) : s.ph = .accSt →
      s.env.statusAns = .bytes st :: rest → dataReady st = true →
      StepCase C s (enter .accFifo (latchStatus st (tookStatus (.bytes st) rest s)))
  | accSampled (d : Frame) (rest : List (PortAnswer Frame)) : s.ph = .accFifo →
      s.env.fifoAns = .bytes d :: rest →
      StepCase C s (complete (writeSample C d (tookBurst (.bytes d) rest s)))
  | tempRead (t : TempBytes) (rest : List (PortAnswer TempBytes)) : s.ph = .tmpRd →
      s.env.tempAns = .bytes t :: rest →
      StepCase C s (complete (writeTemp C t (tookTemp (.bytes t) rest s)))
  | calGated (st : Byte) (rest : List (PortAnswer Byte)) : s.ph = .calSt →
      s.env.statusAns = .bytes st :: rest → dataReady st = false → s.idx.toNat < s.n.toNat →
      s.idx.toNat < s.bufDepth →
      StepCase C s (enter .calWait (storedSample
        (writeGated C (latchStatus st (tookStatus (.bytes st) rest s)))))
  | calReady (st : Byte) (rest : List (PortAnswer Byte)) : s.ph = .calSt →
      s.env.statusAns = .bytes st :: rest → dataReady st = true →
      StepCase C s (enter .calFifo (latchStatus st (tookStatus (.bytes st) rest s)))
  | calSampled (d : Frame) (rest : List (PortAnswer Frame)) : s.ph = .calFifo →
      s.env.fifoAns = .bytes d :: rest → s.idx.toNat < s.n.toNat → s.idx.toNat < s.bufDepth →
      StepCase C s (enter .calWait (storedSample (writeSample C d (tookBurst (.bytes d) rest s))))
  | calLoop (k : Nat) : s.ph = .calWait → s.env.delays = k + 1 → s.idx ≠ s.n →
      StepCase C s (enter .calSt (tookDelay k s))
  | calEnd (k : Nat) : s.ph = .calWait → s.env.delays = k + 1 → s.idx = s.n →
      StepCase C s (enter .calFin (tookDelay k s))
  | degenerate (m : Triple Num) : s.ph = .calFin → calMeans C s = some m → C.isZero (calX C m) = true →
      StepCase C s (raise .calibrationError s)
  | calibrated (m : Triple Num) : s.ph = .calFin → calMeans C s = some m → C.isZero (calX C m) = false →
      StepCase C s (complete (discardBuffers (commitCalibration C m s)))

theorem storeAndWait_next {s t : State Num} (h : storeAndWait s = .next t) :
    s.idx.toNat < s.n.toNat ∧ s.idx.toNat < s.bufDepth ∧ t = enter .calWait (storedSample s) := by
  unfold storeAndWait at h
  split at h
  · cases h
  · next s1 h1 =>
    obtain ⟨hn, hd, rfl⟩ := storeSample_some.mp h1
    exact ⟨hn, hd, by cases h; rfl⟩

theorem rdaccOf_cases {s t : State Num} (hp : s.ph ≠ .idle) (h : rdaccOf C s = .next t) :
    StepCase C s t := by
  unfold rdaccOf at h
  split at h
  · next hi => exact absurd hi hp
  · next hph =>
    unfold rdaccStatus at h
    split at h <;> cases h
    · exact .stay
    · next hs =>
      obtain ⟨rest, h1, rfl⟩ := statusStep_failed hs
      exact .statusBusError rest (.inl hph) h1
    · next hs =>
      obtain ⟨st, rest, h1, hd, rfl⟩ := statusStep_gated hs
      exact .accGated st rest hph h1 hd
    · next hs =>
      obtain ⟨st, rest, h1, hd, rfl⟩ := statusStep_ready hs
      exact .accReady st rest hph h1 hd
  · next hph =>
    unfold rdaccBurst at h
    split at h <;> cases h
    · exact .stay
    · next hs =>
      obtain ⟨rest, h1, rfl⟩ := burstStep_failed hs
      exact .burstBusError rest (.inl hph) h1
    · next hs =>
      obtain ⟨d, rest, h1, rfl⟩ := burstStep_sampled hs
      exact .accSampled d rest hph h1
  all_goals cases h

theorem rdtempOf_cases {s t : State Num} (hp : s.ph ≠ .idle) (h : rdtempOf C s = .next t) :
    StepCase C s t := by
  unfold rdtempOf at h
  split at h
  · next hi => exact absurd hi hp
  · next hph =>
    unfold rdtempRead at h
    split at h <;> cases h
    · exact .stay
    · next hs =>
      obtain ⟨rest, h1, rfl⟩ := takeTemp_some.mp hs
      exact .tempBusError rest hph h1
    · next hs =>
      obtain ⟨rest, h1, rfl⟩ := takeTemp_some.mp hs
      exact .tempRead _ rest hph h1
  all_goals cases h

theorem calibOf_cases {s t : State Num} {c : BitVec 16} {m : BitVec 32} (hp : s.ph ≠ .idle)
    (h : calibOf C c m s = .next t) : StepCase C s t := by
  unfold calibOf at h
  split at h
  · next hi => exact absurd hi hp
  · next hph =>
    unfold calibStatus at h
    split at h
    · cases h; exact .stay
    · next hs =>
      cases h
      obtain ⟨rest, h1, rfl⟩ := statusStep_failed hs
      exact .statusBusError rest (.inr hph) h1
    · next hs =>
      obtain ⟨st, rest, h1, hd, rfl⟩ := statusStep_gated hs
      obtain ⟨hn, hb, rfl⟩ := storeAndWait_next h
      exact .calGated st rest hph h1 hd hn hb
    · next hs =>
      cases h
      obtain ⟨st, rest, h1, hd, rfl⟩ := statusStep_ready hs
      exact .calReady st rest hph h1 hd
  · next hph =>
    unfold calibBurst at h
    split at h
    · cases h; exact .stay
    · next hs =>
      cases h
      obtain ⟨rest, h1, rfl⟩ := burstStep_failed hs
      exact .burstBusError rest (.inr hph) h1
    · next hs =>
      obtain ⟨d, rest, h1, rfl⟩ := burstStep_sampled hs
      obtain ⟨hn, hb, rfl⟩ := storeAndWait_next h
      exact .calSampled d rest hph h1 hn hb
  · next hph =>
    unfold calibWait at h
    split at h
    · cases h; exact .stay
    · next s1 h1 =>
      obtain ⟨k, hk, rfl⟩ := takeDelay_some.mp h1
      split at h <;> cases h
      · next he => exact .calEnd k hph hk he
      · next he => exact .calLoop k hph hk he
  · next hph =>
    unfold calibFinish at h
    split at h
    · cases h
    · next m' hm =>
      split at h <;> cases h
      · next hz => exact .degenerate m' hph hm hz
      · next hz => exact .calibrated m' hph hm (by simpa using hz)
  all_goals cases h

theorem accept_cases {s t : State Num} (hp : s.ph = .idle) (h : accept (execOf C) s = .next t) :
    StepCase C s t := by
  unfold accept at h
  split at h
  · cases h; exact .stay
  · next w s1 h1 =>
    obtain ⟨rest, hc, rfl⟩ := takeCommand_some.mp h1
    split at h
    · next i hi =>
      cases i with
      | rdacc =>
        simp only [execOf, rdaccOf, tookCommand_ph, hp] at h
        cases h
        exact .acceptRdacc w rest hp hc hi
      | rdtemp =>
        simp only [execOf, rdtempOf, tookCommand_ph, hp] at h
        cases h
        exact .acceptRdtemp w rest hp hc hi
      | calib c m =>
        simp only [execOf, calibOf, tookCommand_ph, hp, calibAccept] at h
        split at h <;> cases h
        · next ha => exact .acceptCalib w rest c m hp hc hi ha
        · next ha =>
          refine .refuseWord w rest hp hc fun i hi' => ?_
          cases hi.symm.trans hi'
          exact Bool.eq_false_iff.mpr ha
    · next hd =>
      cases h
      exact .refuseWord w rest hp hc fun i hi => by rw [hd] at hi; cases hi

theorem advance_cases {s t : State Num} (h : advance (execOf C) s = .next t) : StepCase C s t := by
  unfold advance runningCommand at h
  cases hp : s.ph <;> simp only [hp] at h
  · exact accept_cases hp h
  · exact rdaccOf_cases (by simp [hp]) h
  · exact rdaccOf_cases (by simp [hp]) h
  · exact rdtempOf_cases (by simp [hp]) h
  all_goals exact calibOf_cases (by simp [hp]) h

theorem hostRead_cases {s t : State Num} {k : Nat} (h : hostRead k s = .next t) :
    ∃ v, hostRegister k s = some v ∧ (s.ph = .idle ∨ k = 0) ∧ t = record (.hostRead k v) s := by
  unfold hostRead at h
  split at h
  · cases h
  · next v hv =>
    split at h <;> cases h
    next hb =>
    refine ⟨v, hv, ?_, rfl⟩
    simp only [busy, Bool.and_eq_true, decide_eq_true_eq, not_and, Classical.not_not] at hb
    exact (Classical.em (s.ph = .idle)).imp_right hb

/-- exec is the meanings of the commands over the default carrier. -/
theorem execOf_exact (i : Instr) (s : State) : execOf Carrier.exact i s = exec i s := by
  cases i <;> rfl

/-- The step of the machine is the step over the default carrier. -/
theorem stepOf_exact (s : State) : stepOf Carrier.exact s = step s := by
  unfold stepOf step
  rw [show execOf Carrier.exact = exec from funext fun i => funext (execOf_exact i)]

/-- With no turn listed the sequencer moves. -/
theorem step_of_no_turns {s : State} (h : s.env.turns = []) : step s = advance exec s := by
  unfold step stepWith takeTurn
  rw [h]

/-- In its own turn the sequencer moves. -/
theorem step_of_ready {s : State} {ts : List Turn} (h : s.env.turns = .ready :: ts) :
    step s = advance exec (tookTurn ts s) := by
  unfold step stepWith takeTurn
  rw [h]

/-- In IDLE a presented word that decodes to a command is run. -/
theorem advance_of_command {run : Instr → State Num → Outcome Num} {s : State Num} {w : CmdWord}
    {ws : List CmdWord} {i : Instr} (hp : s.ph = .idle) (hc : s.env.cmds = w :: ws)
    (hd : decode w = .command i) : advance run s = run i (tookCommand w ws s) := by
  unfold advance accept takeCommand
  simp only [runningCommand, hp, hc, hd]

/-- In another phase the running command is run. -/
theorem advance_of_running {run : Instr → State Num → Outcome Num} {s : State Num} {i : Instr}
    (h : runningCommand s = some i) : advance run s = run i s := by
  unfold advance
  rw [h]

/-- Whatever a step over any carrier answers next is a hardware reset in a reset turn, or a case of StepCase,
from the state in which the turn has been taken. -/
theorem stepOf_cases {s t : State Num} (h : stepOf C s = .next t) :
    (s.env.turns.head? = some .reset ∧ t = hardReset C (takeTurn s).2) ∨ StepCase C (takeTurn s).2 t := by
  have hf := takeTurn_fst s
  unfold stepOf stepWith at h
  split at h
  · next s1 h1 => rw [h1]; exact .inr (advance_cases h)
  · next s1 h1 =>
    rw [h1]
    split at h
    · exact .inr (advance_cases h)
    · cases h; exact .inr .stay
  · next k s1 h1 =>
    rw [h1]
    obtain ⟨v, hv, hk, rfl⟩ := hostRead_cases h
    exact .inr (.hostRead k v hv hk)
  · next s1 h1 =>
    rw [h1] at hf ⊢
    cases h
    refine .inl ⟨?_, rfl⟩
    cases hh : s.env.turns.head? with
    | none => simp [hh] at hf
    | some u => simp [hh] at hf; rw [← hf]

/-- The same of the machine's step. -/
theorem step_cases {s t : State} (h : step s = .next t) :
    (s.env.turns.head? = some .reset ∧ t = hardReset Carrier.exact (takeTurn s).2) ∨
      StepCase Carrier.exact (takeTurn s).2 t :=
  stepOf_cases ((stepOf_exact s).trans h)

end Sys2Proof.Machine
end

