-- ==== Sys2Proof/Tests/Slice0.lean ====
section
/-! SUPPORT. The model's own tests, their expected values taken from spec/95_test_vectors.md or worked out
by hand from the cited rule, and a witness for the hypotheses of every statement that has some. -/
namespace Sys2Proof.Tests
open Sys2Proof.Machine

/-! ### Helpers -/

/-- The outcome is a next state that satisfies `p`. -/
def holdsNext (p : State → Bool) : Outcome → Bool
  | .next t => p t
  | .fault _ => false
  | .refused _ => false

/-- The outcome is a refusal for the reason `r`. -/
def refuses (r : Refusal) : Outcome → Bool
  | .refused q => decide (q = r)
  | .next _ => false
  | .fault _ => false

theorem exists_next {p : State → Bool} {o : Outcome} (h : holdsNext p o = true) :
    ∃ t, o = .next t ∧ p t = true := by
  cases o with
  | next t => exact ⟨t, rfl, h⟩
  | fault r => cases h
  | refused r => cases h

/-- The burst of V-FRM-2, whose padding nibbles are not zero. -/
def burst : Frame := #v[0x12, 0x34, 0x56, 0xAB, 0xCD, 0xEF, 0xFF, 0xFF, 0xFF]

/-- The burst of V-FRM-5: (10, −10, 30). -/
def burst10 : Frame := #v[0x00, 0x00, 0xA0, 0xFF, 0xFF, 0x60, 0x00, 0x01, 0xE0]

/-- Answers of every kind, the first of each without error. -/
def answers : Env :=
  { turns := [], cmds := [0x0200000000000000#64], statusAns := [.bytes 0x81], fifoAns := [.bytes burst],
    tempAns := [.bytes #v[0x3C, 0x07]], delays := 2 }

/-- Answers of every kind, all BusError. -/
def errors : Env :=
  { answers with statusAns := [.busError], fifoAns := [.busError], tempAns := [.busError] }

/-- The reset state in phase `p`, in a run of two samples of which none is stored, with these inputs. -/
def inPhase (p : Phase) (e : Env) : State := { State.reset with ph := p, n := 2, ms := 5, env := e }

/-- The state of CAL_FIN after one sample. -/
def finishing (x y z : NumVal) : State :=
  { State.reset with ph := .calFin, n := 1, idx := 1, buf := ⟨[x], [y], [z]⟩ }

/-- The reset state with these words at the host. -/
def presented (ws : List CmdWord) : State := withCmds ws State.reset

/-- `s` with these turns to come. -/
def withTurns (ts : List Turn) (s : State) : State := { s with env := { s.env with turns := ts } }

/-! ### WellFormed and the words (V-ILL, V-LEG, 30_encoding.md R94) -/

theorem test_wf_rejects_count_zero : (Instr.calib 0 5).wellFormed 65535 = false := by decide

theorem test_wf_rejects_count_above_depth :
    (Instr.calib 17 0).wellFormed 16 = false ∧ (Instr.calib 16 0).wellFormed 16 = true := by decide

theorem test_decode_rdacc :
    decode 0b0000000100000000000000000000000000000000000000000000000000000000#64 = .command .rdacc := by
  decide

theorem test_decode_rdtemp :
    decode 0b0000001000000000000000000000000000000000000000000000000000000000#64 = .command .rdtemp := by
  decide

theorem test_decode_calib :
    decode 0b0000001100000000000000010000001000000011000001000000010100000110#64 =
      .command (.calib 0x0102 0x03040506) := by decide

theorem test_encode_words :
    encode .rdacc = 0x0100000000000000#64 ∧ encode .rdtemp = 0x0200000000000000#64 ∧
      encode (.calib 5 1000) = 0x03000005000003E8#64 := by decide

theorem test_decode_no_opcode :
    decode 0x0000000000000000#64 = .illegal .noSuchOpcode ∧
      decode 0x0400000000000000#64 = .illegal .noSuchOpcode ∧
      decode 0xFFFFFFFFFFFFFFFF#64 = .illegal .noSuchOpcode := by decide

theorem test_decode_reserved :
    decode 0x0101000000000000#64 = .illegal .reservedBitsSet ∧
      decode 0x0280000000000000#64 = .illegal .reservedBitsSet ∧
      decode 0x0301000200000005#64 = .illegal .reservedBitsSet := by decide

theorem test_decode_unused_operand :
    decode 0x0100000000000001#64 = .illegal .unusedOperandSet ∧
      decode 0x0100000100000000#64 = .illegal .unusedOperandSet ∧
      decode 0x0200000000000001#64 = .illegal .unusedOperandSet := by decide

theorem test_decode_table_word :
    decodeTableWord 64 0x03000001FFFFFFFF = some (.calib 1 0xFFFFFFFF) ∧
      decodeTableWord 64 0x0400000000000000 = none := by decide

theorem test_fetch_word_runs :
    holdsNext (fun t => decide (t.ph = .tmpRd)) (step (State.reset.withFetchWord 64 0x0200000000000000)) =
      true := by decide

/-- V-ILL-10 and V-ILL-12: COUNT outside 1 to BUF_DEPTH is InvalidArgument at acceptance. -/
theorem test_illegal_count :
    holdsNext (fun t => decide (statByte t = 0x02)) (step (presented [0x0300000000000005#64])) = true ∧
      holdsNext (fun t => decide (statByte t = 0x02))
        (step { presented [0x0300001100000000#64] with bufDepth := 16 }) = true := by decide

/-! ### Operands (V-DEC, V-FRM, V-ENC, V-TMP) -/

theorem test_field20_sext20 :
    field20 0xAB 0xCD 0xEF = 0xABCDE#20 ∧ sext20 0xABCDE#20 = -344866 ∧
      tc32 (-344866) = 0xFFFABCDE#32 := by decide

theorem test_decode_frame_lanes :
    decodeFrame burst = ⟨74565, -344866, -1⟩ ∧
      decodeFrame #v[0x00, 0x00, 0x00, 0xFF, 0x00, 0x00, 0x00, 0x00, 0x00] = ⟨0, -4096, 0⟩ := by decide

theorem test_encode20 :
    encode20 (-344866) 15 = (0xAB#8, 0xCD#8, 0xEF#8) ∧ encode20 74565 6 = (0x12#8, 0x34#8, 0x56#8) := by
  decide

theorem test_temperature_1671 : tempC .exact 0x0687 = 45 ∧ tempC .exact 1761 = 6345 / 181 := by decide +kernel

/-! ### RDACC -/

/-- V-ACC-7: the scale is applied, and only to ACC. -/
theorem test_rdacc_scaled :
    holdsNext (fun t => decide (t.acc = ⟨1, -1, 3⟩ ∧ t.raw = ⟨0x0000000A, 0xFFFFFFF6, 0x0000001E⟩ ∧
        statByte t = 0x00))
      (exec .rdacc { inPhase .accFifo { answers with fifoAns := [.bytes burst10] } with
        scale := 1 / 10 }) = true := by decide +kernel

/-- V-ACC-3: bits 7:1 of the status byte do not count as ready. -/
theorem test_rdacc_gated :
    holdsNext (fun t => decide (t.sst = 0xFE ∧ t.raw = ⟨0, 0, 0⟩ ∧ t.frame = burst ∧ t.ph = .idle))
      (exec .rdacc { inPhase .accSt { answers with statusAns := [.bytes 0xFE] } with
        frame := burst
        raw := ⟨1, 1, 1⟩ }) = true := by decide +kernel

/-! ### RDTEMP -/

/-- V-TMP-13: the first byte is the high byte. -/
theorem test_rdtemp_byte_order :
    holdsNext (fun t => decide (t.traw = 0x3C07 ∧ t.temp = -265775 / 181))
      (exec .rdtemp (inPhase .tmpRd answers)) = true := by decide +kernel

/-- V-TMP-12: a BusError leaves TRAW and TEMP unchanged. -/
theorem test_rdtemp_bus_error :
    holdsNext (fun t => decide (t.traw = 0x0687 ∧ t.temp = 45 ∧ statByte t = 0x04))
      (exec .rdtemp { inPhase .tmpRd errors with traw := 0x0687, temp := 45 }) = true := by decide +kernel

/-! ### CALIB -/

/-- V-CAL-3: the final step, with means (1, 2, 13). -/
theorem test_calib_final :
    holdsNext (fun t => decide (t.scale = 2 / 3 ∧ t.off = ⟨1, 2, 3⟩ ∧ t.idx = 0 ∧ statByte t = 0x00))
      (exec (.calib 1 0) (finishing 1 2 13)) = true := by decide +kernel

/-- V-CAL-8: the degenerate denominator, with means (2, 4, 13). -/
theorem test_calib_degenerate :
    holdsNext (fun t => decide (t.scale = 1 ∧ t.off = ⟨0, 0, 0⟩ ∧ statByte t = 0x06))
      (exec (.calib 1 1) (finishing 2 4 13)) = true := by decide +kernel

/-! ### Another carrier (00_scope.md R12) -/

/-- The integers with truncating division: a carrier that is not the default one. -/
def truncating : Carrier Int where
  num k := k
  dec q := q.num.tdiv q.den
  add a b := a + b
  sub a b := a - b
  mul a b := a * b
  div a b := a.tdiv b
  isZero a := decide (a = 0)
  num_nonzero _ hk := decide_eq_false hk
  slope_nonzero := by decide +kernel

/-- The outcome, over the integers, is a next state that satisfies `p`. -/
def holdsNextInt (p : State Int → Bool) : Outcome Int → Bool
  | .next t => p t
  | .fault _ => false
  | .refused _ => false

/-- By hand from R142: the slope truncates to -9; 1761 - 1852 = -91; -91 / -9 truncates to 10; 25 + 10. Over
the rationals the same reading is 6345/181 (V-TMP). -/
theorem test_rdtemp_truncating :
    holdsNextInt (fun t => decide (t.temp = 35 ∧ t.traw = 1761))
      (stepOf truncating { resetOf truncating with
        ph := .tmpRd, env := { Env.none with tempAns := [.bytes #v[0x06, 0xE1]] } }) = true := by
  decide +kernel

/-- The state of CAL_FIN after one sample, over the integers. -/
def finishingInt (x y z : Int) : State Int :=
  { resetOf truncating with ph := .calFin, n := 1, idx := 1, buf := ⟨[x], [y], [z]⟩ }

/-- By hand from R160 with means (1, 2, 13): x = ((3 - 1) + (3 - 2)) / 2 truncates to 1, so SCALE is 1. -/
theorem test_calib_final_truncating :
    holdsNextInt (fun t => decide (t.scale = 1 ∧ t.off = ⟨1, 2, 3⟩ ∧ t.err = .ok))
      (stepOf truncating (finishingInt 1 2 13)) = true := by decide +kernel

/-- By hand from R160 with means (2, 3, 13): x = ((3 - 2) + (3 - 3)) / 2 truncates to 0, which the carrier's
zero test calls degenerate; over the rationals it is 1/2. -/
theorem test_calib_degenerate_truncating :
    holdsNextInt (fun t => decide (t.scale = 1 ∧ t.err = .calibrationError))
      (stepOf truncating (finishingInt 2 3 13)) = true := by decide +kernel

/-! ### Host, reset, boot -/

/-- V-HST-2 and V-HST-4. -/
theorem test_host_refusals :
    refuses .hostReadNoRegister (step (withTurns [.hostRead 14] State.reset)) = true ∧
      refuses .hostReadWhileBusy (step (withTurns [.hostRead 8] (inPhase .calWait answers))) = true := by
  decide

/-- V-RST-2: the late answer to the abandoned request is ignored (log 5). -/
theorem test_reset_abandons_request :
    holdsNext (fun t => decide (t.ph = .idle ∧ t.n = 0 ∧ t.env.fifoAns = [] ∧
        t.env.statusAns = [.bytes 0x81]))
      (step (withTurns [.reset] (inPhase .calFifo answers))) = true := by decide +kernel

/-- S7: RANGE_SELECT 0x80, masks 0x01 then 0x02. -/
theorem test_range_accumulates : rangeConfigure (rangeConfigure 0x80 0x01) 0x02 = 0x83 := by decide

/-! ### Witnesses: the hypotheses of each statement, met together -/

theorem witness_HardResetRestoresResetValues :
    (withTurns [.reset] (inPhase .calFifo answers)).env.turns = .reset :: [] := rfl

theorem witness_AbandonedAnswerIsIgnored_status :
    (withTurns [.reset] (inPhase .accSt answers)).env.turns = .reset :: [] ∧
      (inPhase .accSt answers).ph = .accSt ∧
      (withTurns [.reset] (inPhase .calSt answers)).env.turns = .reset :: [] ∧
      (inPhase .calSt answers).ph = .calSt := ⟨rfl, rfl, rfl, rfl⟩

theorem witness_AbandonedAnswerIsIgnored_burst :
    (withTurns [.reset] (inPhase .accFifo answers)).env.turns = .reset :: [] ∧
      (inPhase .accFifo answers).ph = .accFifo ∧
      (withTurns [.reset] (inPhase .calFifo answers)).env.turns = .reset :: [] ∧
      (inPhase .calFifo answers).ph = .calFifo := ⟨rfl, rfl, rfl, rfl⟩

theorem witness_AbandonedAnswerIsIgnored_temp :
    (withTurns [.reset] (inPhase .tmpRd answers)).env.turns = .reset :: [] ∧
      (inPhase .tmpRd answers).ph = .tmpRd := ⟨rfl, rfl⟩

theorem witness_StatRegisterLayout :
    State.reset.err = .ok ∧ (refusedWord State.reset).err = .invalidArgument ∧
      (raise .busError State.reset).err = .busError ∧
      (raise .calibrationError State.reset).err = .calibrationError := ⟨rfl, rfl, rfl, rfl⟩

theorem witness_ErrChangesOnlyWhenACommandEnds :
    ∃ t, step (inPhase .tmpRd errors) = .next t ∧
      (inPhase .tmpRd errors).env.turns.head? ≠ some .reset := ⟨_, rfl, by decide⟩

theorem witness_HostReadReturnsTheRegister :
    (withTurns [.hostRead 13] State.reset).env.turns = .hostRead 13 :: [] ∧
      (withTurns [.hostRead 13] State.reset).ph = .idle ∧
      (hostTable (withTurns [.hostRead 13] State.reset))[13]? = some (.bits16 0) ∧
      (hostTable (withTurns [.hostRead 0] State.reset))[0]? = some (.bits8 0) ∧
      (withTurns [.hostRead 14] State.reset).env.turns = .hostRead 14 :: [] := by decide +kernel

theorem witness_HostReadWhileBusy :
    (inPhase .calWait answers).ph ≠ .idle ∧
      (withTurns [.hostRead 0] (inPhase .calWait answers)).env.turns = .hostRead 0 :: [] ∧
      (withTurns [.hostRead 1] (inPhase .calWait answers)).env.turns = .hostRead 1 :: [] ∧
      (withTurns [.hostRead 13] (inPhase .calWait answers)).env.turns = .hostRead 13 :: [] := by decide

theorem witness_DecodeExactlyInvertsEncode :
    decode 0x0300FFFFFFFFFFFF#64 = .command (.calib 0xFFFF 0xFFFFFFFF) ∧
      0x0300FFFFFFFFFFFF#64 = encode (.calib 0xFFFF 0xFFFFFFFF) := by decide

theorem witness_LegalWordsAreTheThreePatterns :
    decode 0x0300001000000000#64 = .command (.calib 16 0) ∧ (Instr.calib 16 0).wellFormed 16 = true ∧
      legalWord 16 0x0300001000000000#64 ∧ legalWord 1 0x0300000100000000#64 ∧
      legalWord 1 0x0100000000000000#64 ∧ legalWord 1 0x0200000000000000#64 ∧
      ¬ legalWord 16 0x0300001100000000#64 ∧ ¬ legalWord 16 0x0300000000000000#64 := by
  unfold legalWord; decide

/-- The two forms of SDCA's turn, in IDLE. -/
theorem witness_offers :
    offers (presented [0x0100000000000000#64]) [] ∧
      offers (withTurns [.ready, .silent] (presented [0x0100000000000000#64])) [.silent] :=
  ⟨.inr ⟨rfl, rfl⟩, .inl rfl⟩

/-- The branches of the acceptance step at RDACC, RDTEMP, the least and the greatest COUNT, and one above
it; and a busy state. -/
theorem witness_AcceptanceStep :
    (presented [0x0100000000000000#64]).env.cmds = 0x0100000000000000#64 :: [] ∧
      (presented [0x0100000000000000#64]).ph = .idle ∧
      (0x0100000000000000#64).extractLsb' 56 8 = 0x01 ∧ (0x0100000000000000#64).extractLsb' 0 56 = 0 ∧
      (0x0200000000000000#64).extractLsb' 56 8 = 0x02 ∧ (0x0200000000000000#64).extractLsb' 0 56 = 0 ∧
      (0x0300000100000000#64).extractLsb' 56 8 = 0x03 ∧ (0x0300000100000000#64).extractLsb' 48 8 = 0 ∧
      ((0x0300000100000000#64).extractLsb' 32 16).toNat = 1 ∧
      ((0x0300FFFF00000000#64).extractLsb' 32 16).toNat = State.reset.bufDepth := by decide

theorem witness_AcceptanceStep_illegal :
    ¬ legalWord State.reset.bufDepth 0x0300000000000005#64 ∧
      ¬ legalWord State.reset.bufDepth 0x0400000000000000#64 := by unfold legalWord; decide

theorem witness_AcceptanceStep_busy :
    (inPhase .tmpRd answers).env.cmds = 0x0200000000000000#64 :: [] ∧ offers (inPhase .tmpRd answers) [] ∧
      (inPhase .tmpRd answers).ph ≠ .idle ∧ ∃ t, step (inPhase .tmpRd answers) = .next t :=
  ⟨rfl, .inr ⟨rfl, rfl⟩, by decide, _, rfl⟩

theorem witness_StepRunsDecodedCommand :
    (presented [0x0200000000000000#64]).ph = .idle ∧ offers (presented [0x0200000000000000#64]) [] ∧
      (presented [0x0200000000000000#64]).env.cmds = 0x0200000000000000#64 :: [] ∧
      decode 0x0200000000000000#64 = .command .rdtemp := ⟨rfl, .inr ⟨rfl, rfl⟩, rfl, by decide⟩

theorem witness_StepContinuesRunningCommand :
    offers (inPhase .accFifo answers) [] ∧ offers (inPhase .tmpRd answers) [] ∧
      offers (inPhase .calWait answers) [] ∧ (inPhase .calWait answers).ph = .calWait ∧
      (withTurns [.silent] (finishing 1 2 13)).env.turns = .silent :: [] ∧
      (finishing 1 2 13).ph = .calFin ∧ (inPhase .calWait answers).ph ≠ .calFin :=
  ⟨.inr ⟨rfl, rfl⟩, .inr ⟨rfl, rfl⟩, .inr ⟨rfl, rfl⟩, rfl, rfl, rfl, by decide⟩

theorem witness_WordHeldWhileBusy :
    (inPhase .tmpRd answers).ph ≠ .idle ∧ ∃ t, step (inPhase .tmpRd answers) = .next t :=
  ⟨by decide, _, rfl⟩

theorem witness_PhaseGraphIsComplete :
    (∃ t, step (inPhase .calWait answers) = .next t) ∧ phaseEdge .calWait .calFin = true ∧
      phaseEdge .calFin .idle = true ∧ phaseEdge .idle .idle = true := ⟨⟨_, rfl⟩, rfl, rfl, rfl⟩

theorem witness_UnansweredRequestHangs :
    (inPhase .accSt Env.none).env.turns = [] ∧ unanswered (inPhase .accSt Env.none) ∧
      unanswered (inPhase .accFifo Env.none) ∧ unanswered (inPhase .tmpRd Env.none) ∧
      unanswered (inPhase .calSt Env.none) ∧ unanswered (inPhase .calFifo Env.none) ∧
      unanswered (inPhase .calWait Env.none) :=
  ⟨rfl, .inl ⟨rfl, rfl⟩, .inr (.inl ⟨rfl, rfl⟩), .inr (.inr (.inl ⟨rfl, rfl⟩)),
    .inr (.inr (.inr (.inl ⟨rfl, rfl⟩))), .inr (.inr (.inr (.inr (.inl ⟨rfl, rfl⟩)))),
    .inr (.inr (.inr (.inr (.inr ⟨rfl, rfl⟩))))⟩

theorem witness_DecodeLosesOnlyPadding :
    sext20 0x80000#20 = sext20 0x80000#20 ∧ sext20 0x80000#20 = -524288 ∧ sext20 0x7FFFF#20 = 524287 ∧
      field20 0x12 0x34 0x56 = field20 0x12 0x34 0x5F := by decide

theorem witness_RawRegisterForm :
    (20 ≤ 20 ∧ 20 < 32) ∧ (20 ≤ 31 ∧ 31 < 32) ∧
      (tc32 (sext20 0x80000#20)).getLsbD 20 = true ∧ (tc32 (sext20 0x80000#20)).getLsbD 31 = true := by
  decide

theorem witness_Encode20RoundTrip :
    (-524288 ≤ (-524288 : Int) ∧ (-524288 : Int) ≤ 524287) ∧
      (-524288 ≤ (524287 : Int) ∧ (524287 : Int) ≤ 524287) := by decide

/-- The burst of V-FRM-2 with other padding. -/
def burstPadded : Frame := #v[0x12, 0x34, 0x50, 0xAB, 0xCD, 0xE0, 0xFF, 0xFF, 0xF0]

theorem witness_PaddingTouchesOnlyFrame :
    samePayload burst burstPadded ∧ burst ≠ burstPadded ∧
      (inPhase .accFifo answers).env.fifoAns = .bytes burst :: [] ∧
      (inPhase .accFifo answers).ph = .accFifo ∧ (inPhase .calFifo answers).ph = .calFifo ∧
      canStore (inPhase .calFifo answers) := by unfold samePayload canStore; decide

theorem witness_BareCommandsStart : State.reset.ph = .idle := rfl

theorem witness_RdaccStatusStep :
    (inPhase .accSt answers).ph = .accSt ∧ (inPhase .accSt answers).env.statusAns = .bytes 0x81 :: [] ∧
      (0x81 : Byte).getLsbD 0 = true ∧
      (inPhase .accSt { answers with statusAns := [.bytes 0xFE] }).env.statusAns = .bytes 0xFE :: [] ∧
      (0xFE : Byte).getLsbD 0 = false ∧ (inPhase .accSt errors).env.statusAns = .busError :: [] := by
  decide

theorem witness_RdaccBurstStep :
    (inPhase .accFifo answers).ph = .accFifo ∧
      (inPhase .accFifo answers).env.fifoAns = .bytes burst :: [] ∧
      (inPhase .accFifo errors).env.fifoAns = .busError :: [] := by decide

/-- The reset state with RDACC presented and these answers to come. -/
def rdaccRun (r1 : List (PortAnswer Byte)) (r2 : List (PortAnswer Frame)) : State :=
  { State.reset with env := { Env.none with
      cmds := [0x0100000000000000#64], statusAns := r1, fifoAns := r2 } }

/-- The four rows of R121. -/
theorem witness_RdaccWholeCommand :
    (rdaccRun [.busError] []).ph = .idle ∧ (rdaccRun [.busError] []).env.turns = [] ∧
      (rdaccRun [.busError] []).env.cmds = 0x0100000000000000#64 :: [] ∧
      (rdaccRun [.busError] []).env.statusAns = .busError :: [] ∧
      (rdaccRun [.bytes 0xFE] []).env.statusAns = .bytes 0xFE :: [] ∧ (0xFE : Byte).getLsbD 0 = false ∧
      (rdaccRun [.bytes 0x01] [.busError]).env.statusAns = .bytes 0x01 :: [] ∧
      (0x01 : Byte).getLsbD 0 = true ∧
      (rdaccRun [.bytes 0x01] [.busError]).env.fifoAns = .busError :: [] ∧
      (rdaccRun [.bytes 0x01] [.bytes burst]).env.fifoAns = .bytes burst :: [] := by decide

theorem witness_RdaccFrame :
    (∃ t, exec .rdacc (inPhase .accSt answers) = .next t) ∧
      (∃ t, exec .rdacc (inPhase .accFifo answers) = .next t) ∧
      (∃ t, exec .rdacc State.reset = .next t) ∧
      ∃ t, exec .rdacc (inPhase .accFifo errors) = .next t ∧ t.err = .busError ∧
        (inPhase .accFifo errors).err ≠ .busError :=
  ⟨⟨_, rfl⟩, ⟨_, rfl⟩, ⟨_, rfl⟩, _, rfl, rfl, by decide⟩

theorem witness_RdtempStep :
    (inPhase .tmpRd answers).ph = .tmpRd ∧
      (inPhase .tmpRd answers).env.tempAns = .bytes #v[0x3C, 0x07] :: [] ∧
      (inPhase .tmpRd errors).env.tempAns = .busError :: [] := by decide

theorem witness_TemperatureFormula : (0#16).toNat < (65535#16).toNat := by decide

theorem witness_RdtempFrame :
    (∃ t, exec .rdtemp State.reset = .next t) ∧
      ∃ t, exec .rdtemp (inPhase .tmpRd errors) = .next t ∧ t.err = .busError ∧
        (inPhase .tmpRd errors).err ≠ .busError := ⟨⟨_, rfl⟩, _, rfl, rfl, by decide⟩

theorem witness_CalibAcceptance :
    State.reset.ph = .idle ∧ 1 ≤ (1#16).toNat ∧ (65535#16).toNat ≤ State.reset.bufDepth ∧
      (0#16).toNat = 0 ∧ ({ State.reset with bufDepth := 16 } : State).bufDepth < (17#16).toNat := by decide

/-- Entry 0 of a run of two (for StoreSampleWritesEntryIdx). -/
theorem witness_canStore : canStore (inPhase .calSt answers) := by unfold canStore; decide

/-- A run of 65535 samples before its last one. -/
def lastSample : State :=
  { State.reset with
    ph := .calSt
    n := 65535
    idx := 65534
    buf := Triple.const (List.replicate 65534 0) }

theorem witness_canStore_last : canStore lastSample := by
  unfold lastSample
  refine ⟨?_, ?_, ?_⟩
  · simp only [buffersWf, Triple.const, List.length_replicate]
    decide
  · decide
  · decide

theorem witness_CalibStatusStep :
    (inPhase .calSt answers).ph = .calSt ∧ (inPhase .calSt answers).env.statusAns = .bytes 0x81 :: [] ∧
      (0x81 : Byte).getLsbD 0 = true ∧
      (inPhase .calSt { answers with statusAns := [.bytes 0xFE] }).env.statusAns = .bytes 0xFE :: [] ∧
      (0xFE : Byte).getLsbD 0 = false ∧
      canStore (inPhase .calSt { answers with statusAns := [.bytes 0xFE] }) ∧
      (inPhase .calSt errors).env.statusAns = .busError :: [] := by unfold canStore; decide

theorem witness_CalibBurstStep :
    (inPhase .calFifo answers).ph = .calFifo ∧
      (inPhase .calFifo answers).env.fifoAns = .bytes burst :: [] ∧
      canStore (inPhase .calFifo answers) ∧
      (inPhase .calFifo errors).env.fifoAns = .busError :: [] := by unfold canStore; decide

theorem witness_CalibWaitStep :
    (inPhase .calWait answers).ph = .calWait ∧ (inPhase .calWait answers).env.delays = 1 + 1 ∧
      (inPhase .calWait answers).idx ≠ (inPhase .calWait answers).n ∧
      (inPhase .calWait Env.none).env.delays = 0 ∧
      ({ inPhase .calWait answers with idx := 2 } : State).idx = (inPhase .calWait answers).n := by decide

theorem witness_MeanIsSumOverCount :
    1 ≤ (2#16).toNat ∧ (2#16).toNat ≤ (2#16).toNat ∧ (2#16).toNat ≤ [num 4, num 6].length ∧
      (0#16).toNat = 0 ∧ (1#16).toNat < (2#16).toNat ∧ [num 4].length < (2#16).toNat := by decide

/-- V-CAL-3 and V-CAL-8: both branches of the final step. -/
theorem witness_CalibFinalStep :
    (finishing 1 2 13).ph = .calFin ∧ buffersWf (finishing 1 2 13).buf (finishing 1 2 13).idx = true ∧
      (finishing 1 2 13).idx = (finishing 1 2 13).n ∧ 1 ≤ (finishing 1 2 13).n.toNat ∧
      (1 : NumVal) = (finishing 1 2 13).buf.x.sum / ((finishing 1 2 13).n.toNat : NumVal) ∧
      (2 : NumVal) = (finishing 1 2 13).buf.y.sum / ((finishing 1 2 13).n.toNat : NumVal) ∧
      (13 : NumVal) = (finishing 1 2 13).buf.z.sum / ((finishing 1 2 13).n.toNat : NumVal) ∧
      (3 / 2 : NumVal) = ((13 - 10 - 1) + (13 - 10 - 2)) / 2 ∧ (3 / 2 : NumVal) ≠ 0 ∧
      (4 : NumVal) = (finishing 2 4 13).buf.y.sum / ((finishing 2 4 13).n.toNat : NumVal) ∧
      (0 : NumVal) = ((13 - 10 - 2) + (13 - 10 - 4)) / 2 := by decide +kernel

theorem witness_CalibFrame :
    (∃ t, exec (.calib 2 5) State.reset = .next t) ∧
      (∃ t, exec (.calib 2 5) (inPhase .calSt answers) = .next t) ∧
      (∃ t, exec (.calib 2 5) (inPhase .calFifo answers) = .next t) ∧
      ∃ t, exec (.calib 2 5) (inPhase .calWait answers) = .next t ∧ t.ph ≠ .idle :=
  ⟨⟨_, rfl⟩, ⟨_, rfl⟩, ⟨_, rfl⟩, _, rfl, by decide⟩

theorem witness_CalibFrame_final : ∃ t, exec (.calib 1 0) (finishing 1 2 13) = .next t :=
  let ⟨t, h, _⟩ := exists_next (p := fun _ => true) (o := exec (.calib 1 0) (finishing 1 2 13))
    (by decide +kernel)
  ⟨t, h⟩

/-- The reset state with a CALIB presented and these inputs. -/
def calibRun (w : CmdWord) (r1 : List (PortAnswer Byte)) (r2 : List (PortAnswer Frame)) (j : Nat) :
    State :=
  { State.reset with env := { Env.none with cmds := [w], statusAns := r1, fifoAns := r2, delays := j } }

/-- V-CAL-5: one gated sample, one sample (0, 0, 40). -/
def samplesOk : List CalibAnswer :=
  [.gated 0x00, .sampled 0x01 #v[0x00, 0x00, 0x00, 0x00, 0x00, 0x00, 0x00, 0x02, 0x80]]

/-- V-CAL-8: one sample (2, 4, 13). -/
def samplesDegenerate : List CalibAnswer :=
  [.sampled 0x01 #v[0x00, 0x00, 0x20, 0x00, 0x00, 0x40, 0x00, 0x00, 0xD0]]

theorem witness_CalibWholeRun :
    CalibStart (calibRun (encode (.calib 2 1)) (samplesOk.map CalibAnswer.status)
      (samplesOk.flatMap CalibAnswer.bursts) 2) 2 1 [] samplesOk [] [] 0 ∧
      samplesOk.length = (2#16).toNat :=
  ⟨⟨rfl, rfl, rfl, by decide, by decide, by decide, by decide, rfl⟩, rfl⟩

theorem witness_CalibWholeRun_denominator : runX 1 samplesOk = 10 ∧ runX 1 samplesOk ≠ 0 := by
  decide +kernel

theorem witness_CalibWholeRun_degenerate :
    CalibStart (calibRun (encode (.calib 1 1)) (samplesDegenerate.map CalibAnswer.status)
      (samplesDegenerate.flatMap CalibAnswer.bursts) 1) 1 1 [] samplesDegenerate [] [] 0 ∧
      samplesDegenerate.length = (1#16).toNat :=
  ⟨⟨rfl, rfl, rfl, by decide, by decide, by decide, by decide, rfl⟩, rfl⟩

theorem witness_CalibWholeRun_zero : runX 1 samplesDegenerate = 0 := by decide +kernel

/-- V-CAL-17: the very first status read fails. -/
theorem witness_CalibAbortedRun_status :
    CalibStart (calibRun (encode (.calib 5 1000)) [.busError] [] 0) 5 1000 [] [] (.busError :: []) [] 0 ∧
      ([] : List CalibAnswer).length < (5#16).toNat :=
  ⟨⟨rfl, rfl, rfl, by decide, by decide, by decide, by decide, rfl⟩, by decide⟩

/-- The last sample's burst read fails, after two samples without error. -/
theorem witness_CalibAbortedRun_burst :
    CalibStart (calibRun (encode (.calib 3 7)) (samplesOk.map CalibAnswer.status ++ [.bytes 0x01])
      (samplesOk.flatMap CalibAnswer.bursts ++ [.busError]) 2) 3 7 [] samplesOk (.bytes 0x01 :: [])
      (.busError :: []) 0 ∧ samplesOk.length < (3#16).toNat ∧ (0x01 : Byte).getLsbD 0 = true :=
  ⟨⟨rfl, rfl, rfl, by decide, by decide, by decide, by decide, rfl⟩, by decide, by decide⟩

theorem witness_RaiseEffect :
    State.reset.ph.isCal = false ∧ (inPhase .calFifo answers).ph.isCal = true := by decide

theorem witness_BusErrorEndsTheCommand :
    offers (inPhase .accSt errors) [] ∧ (inPhase .accSt errors).env.statusAns = .busError :: [] ∧
      offers (inPhase .calSt errors) [] ∧ (inPhase .calSt errors).env.statusAns = .busError :: [] ∧
      offers (inPhase .accFifo errors) [] ∧ (inPhase .accFifo errors).env.fifoAns = .busError :: [] ∧
      offers (inPhase .calFifo errors) [] ∧ (inPhase .calFifo errors).env.fifoAns = .busError :: [] ∧
      offers (inPhase .tmpRd errors) [] ∧ (inPhase .tmpRd errors).env.tempAns = .busError :: [] ∧
      (inPhase .calFifo errors).ph.isCal = true :=
  ⟨.inr ⟨rfl, rfl⟩, rfl, .inr ⟨rfl, rfl⟩, rfl, .inr ⟨rfl, rfl⟩, rfl, .inr ⟨rfl, rfl⟩, rfl,
    .inr ⟨rfl, rfl⟩, rfl, rfl⟩

/-- The step in which a command ends with the code `e`, seen through the history. -/
def endsWith (e : ErrCode) (t : State) : Bool := decide (t.trace.head? = some (.completed e))

theorem witness_ErrorsComeFromTheirSteps :
    (∃ t, step (presented [0x0400000000000000#64]) = .next t ∧
      t.trace = .completed .invalidArgument ::
        ([.accepted 0x0400000000000000#64] ++ (presented [0x0400000000000000#64]).trace)) ∧
      (∃ t, step (inPhase .tmpRd errors) = .next t ∧
        t.trace = .completed .busError ::
          ([.answered (.readBytes .temperature 2) .busError] ++ (inPhase .tmpRd errors).trace)) ∧
      ∃ t, step (inPhase .accSt { answers with statusAns := [.bytes 0xFE] }) = .next t ∧
        t.trace = .completed .ok :: ([.answered (.readByte .status) (.bytes [0xFE])] ++
          (inPhase .accSt { answers with statusAns := [.bytes 0xFE] }).trace) :=
  ⟨⟨_, rfl, rfl⟩, ⟨_, rfl, rfl⟩, _, rfl, rfl⟩

theorem witness_ErrorsComeFromTheirSteps_degenerate :
    ∃ t, step (finishing 2 4 13) = .next t ∧ endsWith .calibrationError t = true :=
  exists_next (by decide +kernel)

theorem witness_ScaleWrittenOnlyBySuccessfulCalib :
    ∃ t, step (finishing 1 2 13) = .next t ∧ decide (t.scale = 2 / 3 ∧ t.err = .ok ∧
      (finishing 1 2 13).env.turns.head? ≠ some .reset) = true :=
  exists_next (by decide +kernel)

theorem witness_ReadingIsRawTimesScale :
    ∃ t, step (inPhase .accFifo answers) = .next t ∧ t.raw = ⟨0x00012345, 0xFFFABCDE, 0xFFFFFFFF⟩ :=
  ⟨_, rfl, by decide⟩

/-- RAW zero is a sign-extended field. -/
theorem rawSigned_zero : rawSigned 0 := by unfold rawSigned; decide

/-- A state of a running RDTEMP that meets the invariant (for StepKeepsInvariant and
InvariantRulesOutFaults). -/
theorem witness_Inv : Inv { inPhase .tmpRd answers with
    trace := [.requested (.port (.readBytes .temperature 2))] } where
  depth := by decide
  buffers := by decide
  idx := by decide
  run := by decide
  raw := ⟨rawSigned_zero, rawSigned_zero, rawSigned_zero⟩
  reading := ⟨1, by decide +kernel⟩
  scale := by decide +kernel
  request := rfl

theorem witness_StepKeepsInvariant :
    ∃ t, step { inPhase .tmpRd answers with
      trace := [.requested (.port (.readBytes .temperature 2))] } = .next t := ⟨_, rfl⟩

/-! ### Witnesses of the statements about every carrier -/

/-- The reset state over the integers, in phase `p` of a run of two samples of which none is stored. -/
def inPhaseInt (p : Phase) (e : Env) : State Int :=
  { resetOf truncating with ph := p, n := 2, ms := 5, env := e }

theorem witness_CarrierReadings :
    (inPhaseInt .accSt { answers with statusAns := [.bytes 0xFE] }).ph = .accSt ∧
      (inPhaseInt .accSt { answers with statusAns := [.bytes 0xFE] }).env.statusAns = .bytes 0xFE :: [] ∧
      (0xFE : Byte).getLsbD 0 = false ∧
      (inPhaseInt .accFifo answers).ph = .accFifo ∧
      (inPhaseInt .accFifo answers).env.fifoAns = .bytes burst :: [] ∧
      (74565 : Int) = sext20 (field20 burst[0] burst[1] burst[2]) ∧
      (-344866 : Int) = sext20 (field20 burst[3] burst[4] burst[5]) ∧
      (-1 : Int) = sext20 (field20 burst[6] burst[7] burst[8]) ∧
      (inPhaseInt .tmpRd answers).ph = .tmpRd ∧
      (inPhaseInt .tmpRd answers).env.tempAns = .bytes #v[0x3C, 0x07] :: [] := by decide

theorem witness_CarrierSamples :
    canStore (inPhaseInt .calSt { answers with statusAns := [.bytes 0xFE] }) ∧
      (inPhaseInt .calSt { answers with statusAns := [.bytes 0xFE] }).ph = .calSt ∧
      (inPhaseInt .calSt { answers with statusAns := [.bytes 0xFE] }).env.statusAns = .bytes 0xFE :: [] ∧
      (0xFE : Byte).getLsbD 0 = false ∧
      canStore (inPhaseInt .calFifo answers) ∧ (inPhaseInt .calFifo answers).ph = .calFifo ∧
      (inPhaseInt .calFifo answers).env.fifoAns = .bytes burst :: [] ∧
      (74565 : Int) = truncating.mul (truncating.num (decodeFrame burst).x)
        (inPhaseInt .calFifo answers).scale := by unfold canStore; decide

/-- Two samples, all stored. -/
theorem witness_CarrierMeans :
    (⟨[4, 6], [1, 2], [7, 8]⟩ : Triple (List Int)) = ⟨4 :: [6], 1 :: [2], 7 :: [8]⟩ ∧
      buffersWf (⟨[4, 6], [1, 2], [7, 8]⟩ : Triple (List Int)) 2 = true ∧
      ({ inPhaseInt .calFin answers with idx := 2 } : State Int).idx = (inPhaseInt .calFin answers).n := by
  decide

/-- Both branches: the means (1, 2, 13), and (2, 3, 13), which this carrier finds degenerate. -/
theorem witness_CarrierFinalStep :
    (finishingInt 1 2 13).ph = .calFin ∧
      calMeans truncating (finishingInt 1 2 13) = some ⟨1, 2, 13⟩ ∧
      (3 : Int) = truncating.sub 13 (truncating.num 10) ∧
      (1 : Int) = truncating.div (truncating.add (truncating.sub 3 1) (truncating.sub 3 2))
        (truncating.num 2) ∧
      truncating.isZero 1 = false ∧
      calMeans truncating (finishingInt 2 3 13) = some ⟨2, 3, 13⟩ ∧
      (0 : Int) = truncating.div (truncating.add (truncating.sub 3 2) (truncating.sub 3 3))
        (truncating.num 2) ∧
      truncating.isZero 0 = true := by decide

/-- The division changed where the zero test holds, and only there. -/
def divElsewhere (a b : Int) : Int := if b = 0 then 77 else a.tdiv b

theorem witness_NoDivisionByZero :
    (∀ a b, truncating.isZero b = false → divElsewhere a b = truncating.div a b) ∧
      divElsewhere 1 0 ≠ truncating.div 1 0 :=
  ⟨fun _ _ h => if_neg (of_decide_eq_false h), by decide⟩

theorem witness_RunInvariantForEveryCarrier :
    RunInv (resetOf truncating) ∧ ∃ t, stepOf truncating (resetOf truncating) = .next t :=
  ⟨{ depth := by decide, buffers := rfl, idx := rfl, run := by decide,
     raw := ⟨rawSigned_zero, rawSigned_zero, rawSigned_zero⟩, request := rfl }, _, rfl⟩

theorem witness_RegisterAddressesAreDistinct :
    SensorReg.reset ≠ .fifoData ∧ SensorReg.status ≠ .temperature ∧
      Config.sensorAddr .status ≠ Config.sensorAddr .temperature :=
  ⟨by decide, by decide, fun h => absurd (addrDistinct _ _ h) (by decide)⟩

end Sys2Proof.Tests
end

section
/-! The host's side of the machine (10_state.md R39 to R41): what a read of the register file answers, in the
host's turn, in IDLE and while a command runs. -/
namespace Sys2Proof.Machine

variable {Num : Type}

/-! ### The register file -/

@[simp] theorem hostTable_length (s : State) : (hostTable s).length = 14 := rfl

/-- The register file is the table of R39, at every number. -/
theorem hostRegister_eq_hostTable (s : State) : ∀ k, hostRegister k s = (hostTable s)[k]?
  | 0 | 1 | 2 | 3 | 4 | 5 | 6 | 7 | 8 | 9 | 10 | 11 | 12 | 13 | _ + 14 => rfl

@[simp] theorem hostRegister_tookTurn (k : Nat) (ts : List Turn) (s : State Num) :
    hostRegister k (tookTurn ts s) = hostRegister k s := rfl

theorem hostRegister_eq_none {s : State} {k : Nat} (h : 14 ≤ k) : hostRegister k s = none := by
  rw [hostRegister_eq_hostTable, List.getElem?_eq_none_iff, hostTable_length]
  exact h

theorem hostRegister_eq_some {s : State} {k : Nat} (h : k ≤ 13) : ∃ v, hostRegister k s = some v := by
  have hk : k < (hostTable s).length := by
    rw [hostTable_length]
    exact Nat.lt_succ_of_le h
  exact ⟨_, (hostRegister_eq_hostTable s k).trans (List.getElem?_eq_getElem hk)⟩

theorem busy_eq_true {s : State Num} : busy s = true ↔ s.ph ≠ .idle := decide_eq_true_iff

/-- While a command runs STAT reads as BUSY = 1 under the ERR of the last one (R28, R41). -/
theorem statByte_of_busy {s : State Num} (h : s.ph ≠ .idle) : statByte s = 0#5 ++ s.err.bits ++ 1#1 := by
  unfold statByte
  rw [busy_eq_true.mpr h]
  rfl

/-! ### The three outcomes of a host read -/

/-- A number that names no register is refused, in any phase. -/
theorem hostRead_of_none {s : State Num} {k : Nat} (h : hostRegister k s = none) :
    hostRead k s = .refused .hostReadNoRegister := by
  unfold hostRead
  rw [h]

/-- In IDLE every register can be read, and STAT in every phase. -/
theorem hostRead_of_allowed {s : State Num} {k : Nat} {v : HostValue Num} (h : hostRegister k s = some v)
    (ha : s.ph = .idle ∨ k = 0) : hostRead k s = .next (record (.hostRead k v) s) := by
  unfold hostRead
  rw [h]
  refine if_neg fun hb => ?_
  obtain ⟨hbusy, hk⟩ := Bool.and_eq_true_iff.mp hb
  have hne : k ≠ 0 := of_decide_eq_true hk
  exact ha.elim (busy_eq_true.mp hbusy) hne

/-- While a command runs every register but STAT is refused. -/
theorem hostRead_of_busy {s : State Num} {k : Nat} {v : HostValue Num} (h : hostRegister k s = some v)
    (hp : s.ph ≠ .idle) (hk : k ≠ 0) : hostRead k s = .refused .hostReadWhileBusy := by
  unfold hostRead
  rw [h]
  exact if_pos (Bool.and_eq_true_iff.mpr ⟨busy_eq_true.mpr hp, decide_eq_true hk⟩)

/-- In the host's turn the step is the read. -/
theorem step_of_hostRead {s : State} {k : Nat} {ts : List Turn} (h : s.env.turns = .hostRead k :: ts) :
    step s = hostRead k (tookTurn ts s) := by
  unfold step stepWith takeTurn
  rw [h]

/-! ### The obligations -/

/-- Settles O6: in IDLE the read is allowed and the register file is the table of R39; from 14 on the
register file has nothing. -/
theorem hostReadReturnsTheRegister : Obligations.HostReadReturnsTheRegister := by
  intro s k ts hturn
  rw [step_of_hostRead hturn]
  constructor
  · intro v hp hv
    have hr : hostRegister k (tookTurn ts s) = some v := by
      rw [hostRegister_tookTurn, hostRegister_eq_hostTable, hv]
    exact hostRead_of_allowed hr (.inl hp)
  · intro hk
    exact hostRead_of_none (hostRegister_eq_none hk)

/-- Settles O7: STAT is allowed in every phase and reads as BUSY with the last ERR; each other number of the
table names a register, which is refused while a command runs. -/
theorem hostReadWhileBusy : Obligations.HostReadWhileBusy := by
  intro s k ts hturn hp
  rw [step_of_hostRead hturn]
  constructor
  · rintro rfl
    rw [← statByte_of_busy hp]
    exact hostRead_of_allowed rfl (.inr rfl)
  · intro hpos hk
    obtain ⟨v, hv⟩ := hostRegister_eq_some (s := tookTurn ts s) hk
    exact hostRead_of_busy hv hp (Nat.ne_of_gt hpos)

end Sys2Proof.Machine
end

section
/-! The acceptance of a command word (30_encoding.md R92): which words the decoder reads as which command, what
each command does when IDLE takes it, and that only IDLE takes one. -/
namespace Sys2Proof

/-! ### The fields of the word decide -/

theorem decode_eq_rdacc_iff {w : CmdWord} :
    decode w = .command .rdacc ↔ opcOf w = 0x01 ∧ lowBits w = 0 := by
  unfold decode decodeBare
  split_ifs <;> simp_all

theorem decode_eq_rdtemp_iff {w : CmdWord} :
    decode w = .command .rdtemp ↔ opcOf w = 0x02 ∧ lowBits w = 0 := by
  unfold decode decodeBare
  split_ifs <;> simp_all

theorem decode_eq_calib_iff {w : CmdWord} {count : BitVec 16} {interval : BitVec 32} :
    decode w = .command (.calib count interval) ↔
      opcOf w = 0x03 ∧ rsvOf w = 0 ∧ countOf w = count ∧ intervalOf w = interval := by
  unfold decode decodeBare
  split_ifs <;> simp_all

/-- A word is its OPC above its low 56 bits (R90). -/
theorem opcOf_append_lowBits (w : CmdWord) : opcOf w ++ lowBits w = w :=
  BitVec.extractLsb'_append_extractLsb'_eq_extractLsb' (by rfl) |>.trans BitVec.extractLsb'_eq_self

/-- OPC and RSV are the word's top sixteen bits (R90). -/
theorem opcOf_append_rsvOf (w : CmdWord) : opcOf w ++ rsvOf w = w.extractLsb' 48 16 :=
  BitVec.extractLsb'_append_extractLsb'_eq_extractLsb' (by rfl)

end Sys2Proof

namespace Sys2Proof.Machine

variable {Num : Type} {C : Carrier Num}

/-- A word that decodes to an admissible command has one of the three patterns (R94, R97, R99). -/
theorem legalWord_of_decode {depth : Nat} {w : CmdWord} {i : Instr} (hd : decode w = .command i)
    (hw : i.wellFormed depth = true) : legalWord depth w := by
  cases i with
  | rdacc =>
    obtain ⟨hopc, hlow⟩ := decode_eq_rdacc_iff.mp hd
    exact .inl (by rw [← opcOf_append_lowBits w, hopc, hlow]; rfl)
  | rdtemp =>
    obtain ⟨hopc, hlow⟩ := decode_eq_rdtemp_iff.mp hd
    exact .inr (.inl (by rw [← opcOf_append_lowBits w, hopc, hlow]; rfl))
  | calib count interval =>
    obtain ⟨hopc, hrsv, rfl, -⟩ := decode_eq_calib_iff.mp hd
    obtain ⟨hpos, hdepth⟩ := Bool.and_eq_true_iff.mp hw
    have htop : w.extractLsb' 48 16 = 0x0300#16 := by rw [← opcOf_append_rsvOf, hopc, hrsv]; rfl
    exact .inr (.inr ⟨htop, of_decide_eq_true hpos, of_decide_eq_true hdepth⟩)

/-! ### What each command does when IDLE takes it -/

theorem exec_rdacc_of_idle {s : State} (hp : s.ph = .idle) : exec .rdacc s = .next (enter .accSt s) := by
  simp only [exec, execRdacc, rdaccOf, hp]

theorem exec_rdtemp_of_idle {s : State} (hp : s.ph = .idle) : exec .rdtemp s = .next (enter .tmpRd s) := by
  simp only [exec, execRdtemp, rdtempOf, hp]

theorem exec_calib_of_idle {s : State} {count : BitVec 16} {interval : BitVec 32} (hp : s.ph = .idle) :
    exec (.calib count interval) s = calibAccept count interval s := by
  simp only [exec, execCalib, calibOf, hp]

theorem calibAccept_of_admissible {s : State Num} {count : BitVec 16} {interval : BitVec 32}
    (h : calibAdmissible s.bufDepth count = true) :
    calibAccept count interval s = .next (enter .calSt (discardBuffers (latchOperands count interval s))) :=
  if_pos h

theorem calibAccept_of_inadmissible {s : State Num} {count : BitVec 16} {interval : BitVec 32}
    (h : calibAdmissible s.bufDepth count = false) :
    calibAccept count interval s = .next (raise .invalidArgument s) :=
  if_neg (Bool.eq_false_iff.mp h)

/-- IDLE refuses an inadmissible command, which is a CALIB, with InvalidArgument (R92). -/
theorem exec_of_not_wellFormed {s : State} {i : Instr} (hp : s.ph = .idle)
    (hw : i.wellFormed s.bufDepth = false) : exec i s = .next (raise .invalidArgument s) := by
  cases i with
  | rdacc => cases hw
  | rdtemp => cases hw
  | calib count interval => rw [exec_calib_of_idle hp, calibAccept_of_inadmissible hw]

/-- In IDLE a raised error discards nothing and leaves PH. -/
theorem raise_invalidArgument_of_idle {s : State} (hp : s.ph = .idle) :
    raise .invalidArgument s = refusedWord s := by
  simp [raise, refusedWord, hp, Phase.isCal]

/-! ### The step that takes a word -/

/-- When the agent that SDCA waits for has the turn, the sequencer moves. -/
theorem step_of_offers {s : State} {ts : List Turn} (h : offers s ts) :
    step s = advance exec (tookTurn ts s) := by
  rcases h with hready | ⟨hnone, rfl⟩
  · exact step_of_ready hready
  · have hs : tookTurn [] s = s := by rw [tookTurn, ← hnone]
    rw [hs]
    exact step_of_no_turns hnone

/-- In IDLE a presented word that decodes to no command is refused. -/
theorem advance_of_illegal {run : Instr → State Num → Outcome Num} {s : State Num} {w : CmdWord}
    {ws : List CmdWord} {r : RejectReason} (hp : s.ph = .idle) (hc : s.env.cmds = w :: ws)
    (hd : decode w = .illegal r) : advance run s = .next (raise .invalidArgument (tookCommand w ws s)) := by
  unfold advance accept takeCommand
  simp only [runningCommand, hp, hc, hd, acceptIllegal]

/-- In IDLE a word with none of the three patterns is refused: it decodes to no command, or to one that is
not admissible. -/
theorem advance_of_not_legalWord {s : State} {w : CmdWord} {ws : List CmdWord} (hp : s.ph = .idle)
    (hc : s.env.cmds = w :: ws) (hl : ¬ legalWord s.bufDepth w) :
    advance exec s = .next (refusedWord (tookCommand w ws s)) := by
  have hp' : (tookCommand w ws s).ph = .idle := hp
  rw [← raise_invalidArgument_of_idle hp']
  cases hd : decode w with
  | illegal r => exact advance_of_illegal hp hc hd
  | command i =>
    have hw : i.wellFormed s.bufDepth = false :=
      Bool.eq_false_iff.mpr fun hw => hl (legalWord_of_decode hd hw)
    rw [advance_of_command hp hc hd]
    exact exec_of_not_wellFormed hp' hw

/-! ### The words held at the host -/

theorem abandonRequest_cmds (p : Phase) (e : Env) : (abandonRequest p e).cmds = e.cmds := by
  cases p <;> rfl

/-- Only IDLE takes a word from the host. -/
theorem StepCase.cmds_of_busy {s t : State Num} (h : StepCase C s t) (hp : s.ph ≠ .idle) :
    t.env.cmds = s.env.cmds := by
  cases h with
  | acceptRdacc _ _ hi => exact absurd hi hp
  | acceptRdtemp _ _ hi => exact absurd hi hp
  | acceptCalib _ _ _ _ hi => exact absurd hi hp
  | refuseWord _ _ hi => exact absurd hi hp
  | _ => rfl

/-- While a command runs no step, hardware reset included, takes a word from the host (R92). -/
theorem step_cmds_of_busy {s t : State} (hp : s.ph ≠ .idle) (h : step s = .next t) :
    t.env.cmds = s.env.cmds := by
  have hcase := step_cases h
  rw [takeTurn_snd] at hcase
  rcases hcase with ⟨-, rfl⟩ | hcase
  · exact abandonRequest_cmds ..
  · exact hcase.cmds_of_busy hp

/-! ### The obligation -/

/-- Settles O11: the fields of the word give its decode, the decode the command's acceptance; what none of
the three patterns matches is refused, and outside IDLE no step takes a word. -/
theorem acceptanceStep : Obligations.AcceptanceStep := by
  intro s w ws ts hcmds hturn
  refine ⟨fun hidle => ?_, fun hbusy t ht => (step_cmds_of_busy hbusy ht).trans hcmds⟩
  have hp : (tookTurn ts s).ph = .idle := hidle
  have hc : (tookTurn ts s).env.cmds = w :: ws := hcmds
  have hp' : (tookCommand w ws (tookTurn ts s)).ph = .idle := hidle
  rw [step_of_offers hturn]
  refine ⟨fun hopc hlow => ?_, fun hopc hlow => ?_, fun hopc hrsv hpos hdepth => ?_,
    advance_of_not_legalWord hp hc⟩
  · rw [advance_of_command hp hc (decode_eq_rdacc_iff.mpr ⟨hopc, hlow⟩), exec_rdacc_of_idle hp']
    rfl
  · rw [advance_of_command hp hc (decode_eq_rdtemp_iff.mpr ⟨hopc, hlow⟩), exec_rdtemp_of_idle hp']
    rfl
  · have hadm : calibAdmissible (tookCommand w ws (tookTurn ts s)).bufDepth (countOf w) = true :=
      Bool.and_eq_true_iff.mpr ⟨decide_eq_true hpos, decide_eq_true hdepth⟩
    rw [advance_of_command hp hc (decode_eq_calib_iff.mpr ⟨hopc, hrsv, rfl, rfl⟩),
      exec_calib_of_idle hp', calibAccept_of_admissible hadm]
    rfl

end Sys2Proof.Machine
end

section
/-! The decode of a sample (40_sample_decode.md R112, R115): the signed reading of a 20-bit field and its
register form; and the steps of RDACC (R119, R120), each answer's next state by name. -/
namespace Sys2Proof.Machine

/-! ### The signed reading of a field -/

/-- The mask of R112 leaves the nineteen bits below the sign. -/
theorem toNat_and_mask19 (raw : BitVec 20) : (raw &&& 0x7FFFF#20).toNat = raw.toNat % 2 ^ 19 := by
  rw [BitVec.toNat_and]
  exact Nat.and_two_pow_sub_one_eq_mod raw.toNat 19

/-- Bit 19, which R112 tests, is the sign bit of the field. -/
theorem getLsbD_19_eq_decide (raw : BitVec 20) : raw.getLsbD 19 = decide (0x80000 ≤ raw.toNat) := by
  rw [← BitVec.msb_eq_getLsbD_last raw, BitVec.msb_eq_decide]

/-- `sext20` in arithmetic: the upper half of the 20-bit numbers stands `2 ^ 20` lower (R112). -/
theorem sext20_eq_ite (raw : BitVec 20) :
    sext20 raw = if 0x80000 ≤ raw.toNat then (raw.toNat : Int) - 0x100000 else raw.toNat := by
  unfold sext20
  rw [getLsbD_19_eq_decide, toNat_and_mask19]
  by_cases hsign : 0x80000 ≤ raw.toNat
  · have hlt : raw.toNat < 2 ^ 20 := raw.isLt
    simp only [hsign, decide_true, if_true]
    omega
  · simp only [hsign, decide_false, Bool.false_eq_true, if_false]

/-- `sext20` is the two's-complement value of the field (R112). -/
theorem sext20_eq_toInt (raw : BitVec 20) : sext20 raw = raw.toInt := by
  rw [sext20_eq_ite, BitVec.toInt_eq_msb_cond, BitVec.msb_eq_decide]
  simp

/-- The range of the signed reading (R112). -/
theorem sext20_range (raw : BitVec 20) : -524288 ≤ sext20 raw ∧ sext20 raw ≤ 524287 := by
  rw [sext20_eq_toInt]
  exact ⟨raw.le_toInt, Int.le_of_lt_add_one raw.toInt_lt⟩

/-! ### The register form of a field -/

/-- The register form of a field is its sign extension to 32 bits (R115). -/
theorem tc32_sext20 (raw : BitVec 20) : tc32 (sext20 raw) = raw.signExtend 32 := by
  rw [sext20_eq_toInt]
  rfl

theorem extractLsb'_tc32_sext20 (raw : BitVec 20) : (tc32 (sext20 raw)).extractLsb' 0 20 = raw := by
  rw [tc32_sext20]
  ext i hi
  have h32 : i < 32 := Nat.lt_trans hi (by decide)
  simp [BitVec.getElem_signExtend, hi, h32]

theorem getLsbD_tc32_sext20 {i : Nat} (raw : BitVec 20) (hlo : 20 ≤ i) (hhi : i < 32) :
    (tc32 (sext20 raw)).getLsbD i = raw.getLsbD 19 := by
  rw [tc32_sext20, BitVec.getLsbD_signExtend, if_neg (Nat.not_lt.mpr hlo), decide_eq_true hhi, Bool.true_and]
  exact raw.msb_eq_getLsbD_last

/-! ### The steps of RDACC -/

/-- An error raised outside CALIB discards nothing (60_exceptions.md R184). -/
theorem raise_of_not_isCal {Num : Type} {s : State Num} (e : ErrCode) (hp : s.ph.isCal = false) :
    raise e s = { s with err := e, ph := .idle, trace := .completed e :: s.trace } := by
  simp only [raise, hp, Bool.false_eq_true, if_false]

theorem exec_rdacc_of_accSt {s : State} (hp : s.ph = .accSt) :
    exec .rdacc s = rdaccStatus Carrier.exact s := by
  simp only [exec, execRdacc, rdaccOf, hp]

theorem exec_rdacc_of_accFifo {s : State} (hp : s.ph = .accFifo) :
    exec .rdacc s = rdaccBurst Carrier.exact s := by
  simp only [exec, execRdacc, rdaccOf, hp]

section Answers

variable {Num : Type} {C : Carrier Num} {s : State Num}

/-- The status step of RDACC on each kind of answer (R119). -/
theorem rdaccStatus_clear {st : Byte} {rest : List (PortAnswer Byte)} (h : s.env.statusAns = .bytes st :: rest)
    (hd : dataReady st = false) :
    rdaccStatus C s =
      .next (complete (writeGated C (latchStatus st (tookStatus (.bytes st) rest s)))) := by
  simp only [rdaccStatus, statusStep_clear h hd]

theorem rdaccStatus_set {st : Byte} {rest : List (PortAnswer Byte)} (h : s.env.statusAns = .bytes st :: rest)
    (hd : dataReady st = true) :
    rdaccStatus C s = .next (enter .accFifo (latchStatus st (tookStatus (.bytes st) rest s))) := by
  simp only [rdaccStatus, statusStep_set h hd]

theorem rdaccStatus_busError {rest : List (PortAnswer Byte)} (h : s.env.statusAns = .busError :: rest) :
    rdaccStatus C s = .next (raise .busError (tookStatus .busError rest s)) := by
  simp only [rdaccStatus, statusStep_busError h]

/-- The burst step of RDACC on each kind of answer (R120). -/
theorem rdaccBurst_bytes {d : Frame} {rest : List (PortAnswer Frame)} (h : s.env.fifoAns = .bytes d :: rest) :
    rdaccBurst C s = .next (complete (writeSample C d (tookBurst (.bytes d) rest s))) := by
  simp only [rdaccBurst, burstStep_bytes h]

theorem rdaccBurst_busError {rest : List (PortAnswer Frame)} (h : s.env.fifoAns = .busError :: rest) :
    rdaccBurst C s = .next (raise .busError (tookBurst .busError rest s)) := by
  simp only [rdaccBurst, burstStep_busError h]

end Answers

/-! ### The obligations -/

/-- Settles O18: both forms of the rule and the range hold of every field, and the boundary values compute. -/
theorem sext20IsTwosComplement : Obligations.Sext20IsTwosComplement :=
  ⟨fun raw => ⟨sext20_eq_toInt raw, sext20_eq_ite raw, sext20_range raw⟩, by decide⟩

/-- Settles O20: the register form is the sign extension of the field, and the four examples compute. -/
theorem rawRegisterForm : Obligations.RawRegisterForm :=
  ⟨fun d s => writeSample_raw Carrier.exact d s,
    fun raw => ⟨extractLsb'_tc32_sext20 raw, fun _ => getLsbD_tc32_sext20 raw⟩, by decide⟩

/-- Settles O24: the answer and bit 0 of the status byte choose the step's outcome; outside CALIB a BusError
keeps IDX and the buffers. -/
theorem rdaccStatusStep : Obligations.RdaccStatusStep := by
  intro s rest hp
  rw [exec_rdacc_of_accSt hp]
  refine ⟨fun st hans hbit => ?_, fun st hans hbit => ?_, fun hans => ?_⟩
  · rw [rdaccStatus_clear hans hbit]
    rfl
  · rw [rdaccStatus_set hans hbit]
    rfl
  · have hcal : (tookStatus .busError rest s).ph.isCal = false := by rw [tookStatus_ph, hp]; rfl
    rw [rdaccStatus_busError hans, raise_of_not_isCal _ hcal]
    rfl

/-- Settles O25: nine bytes are decoded, scaled and written; outside CALIB a BusError keeps IDX and the
buffers. -/
theorem rdaccBurstStep : Obligations.RdaccBurstStep := by
  intro s rest hp
  rw [exec_rdacc_of_accFifo hp]
  refine ⟨fun d hans => ?_, fun hans => ?_⟩
  · rw [rdaccBurst_bytes hans]
    rfl
  · have hcal : (tookBurst .busError rest s).ph.isCal = false := by rw [tookBurst_ph, hp]; rfl
    rw [rdaccBurst_busError hans, raise_of_not_isCal _ hcal]
    rfl

end Sys2Proof.Machine
end

section
/-! The temperature (41_temperature.md R141, R142): the raw word and the formula in closed form; and the step of
RDTEMP (R143), each answer's next state by name. -/
namespace Sys2Proof.Machine

/-! ### The temperature formula -/

/-- The formula over the rationals, in the order of R142. -/
theorem tempC_exact (v : BitVec 16) :
    tempC .exact v = num 25 + (num (v.toNat : Int) - num 1852) / (-181 / 20) := rfl

/-- Dividing by −181/20 is multiplying by −20/181 (R142). -/
theorem tempC_exact_closed (v : BitVec 16) :
    tempC .exact v = 25 - 20 * ((v.toNat : NumVal) - 1852) / 181 := by
  rw [tempC_exact]
  push_cast
  ring

/-- A larger raw value is a lower temperature (R142). -/
theorem tempC_exact_strictAnti {v w : BitVec 16} (h : v.toNat < w.toNat) :
    tempC .exact w < tempC .exact v := by
  have hcast : (v.toNat : NumVal) < w.toNat := Nat.cast_lt.mpr h
  rw [tempC_exact_closed, tempC_exact_closed]
  linarith

/-! ### The raw word -/

/-- The raw word is the two bytes side by side, the first received above (R141). -/
theorem tempRaw_eq_append (t0 t1 : Byte) : tempRaw t0 t1 = t0 ++ t1 := by
  rw [BitVec.append_def, BitVec.shiftLeftZeroExtend_eq]
  rfl

/-- The raw word as a number (R141). -/
theorem toNat_tempRaw (t0 t1 : Byte) : (tempRaw t0 t1).toNat = t0.toNat * 256 + t1.toNat := by
  rw [tempRaw_eq_append, BitVec.toNat_append, ← Nat.shiftLeft_add_eq_or_of_lt t1.isLt, Nat.shiftLeft_eq]

/-! ### The step of RDTEMP -/

theorem exec_rdtemp_of_tmpRd {s : State} (hp : s.ph = .tmpRd) :
    exec .rdtemp s = rdtempRead Carrier.exact s := by
  simp only [exec, execRdtemp, rdtempOf, hp]

section Answers

variable {Num : Type} {C : Carrier Num} {s : State Num} {rest : List (PortAnswer TempBytes)}

/-- The step of RDTEMP on each kind of answer (R143). -/
theorem rdtempRead_bytes {t : TempBytes} (h : s.env.tempAns = .bytes t :: rest) :
    rdtempRead C s = .next (complete (writeTemp C t (tookTemp (.bytes t) rest s))) := by
  simp only [rdtempRead, takeTemp, h]

theorem rdtempRead_busError (h : s.env.tempAns = .busError :: rest) :
    rdtempRead C s = .next (raise .busError (tookTemp .busError rest s)) := by
  simp only [rdtempRead, takeTemp, h]

end Answers

/-! ### The obligations -/

/-- Settles O29: the formula as written is its definition; the closed form gives the order and, at the two
ends of the 16-bit range, the extremes. -/
theorem temperatureFormula : Obligations.TemperatureFormula := by
  refine ⟨fun v => ⟨tempC_exact v, tempC_exact_closed v⟩, fun v w => tempC_exact_strictAnti, ?_, ?_⟩
  · rw [tempC_exact_closed]
    norm_num
  · have hmax : (65535 : BitVec 16).toNat = 65535 := rfl
    rw [tempC_exact_closed, hmax]
    norm_num

/-- Settles O28: two bytes are joined to the raw word, whose temperature is written; outside CALIB a BusError
keeps IDX and the buffers. -/
theorem rdtempStep : Obligations.RdtempStep := by
  intro s rest hp
  rw [exec_rdtemp_of_tmpRd hp]
  refine ⟨fun t0 t1 hans => ?_, fun hans => ?_⟩
  · rw [rdtempRead_bytes hans, ← tempRaw_eq_append, ← toNat_tempRaw]
    rfl
  · have hcal : (tookTemp .busError rest s).ph.isCal = false := by rw [tookTemp_ph, hp]; rfl
    rw [rdtempRead_busError hans, raise_of_not_isCal _ hcal]
    rfl

end Sys2Proof.Machine
end

section
/-! CALIB (42_calibration.md R153 to R161): the sample store, the means over any carrier, the denominator of the
new scale, and the steps of a running CALIB, each input's next state by name. -/
namespace Sys2Proof.Machine

/-! ### The sample store -/

section Store

variable {Num : Type} {s : State Num}

theorem getElem?_storeAt_self {l : List Num} {i : Nat} (v : Num) (h : l.length = i) :
    (storeAt l i v)[i]? = some v := by
  rw [storeAt_append v h, ← h]
  exact List.getElem?_concat_length

theorem getElem?_storeAt_of_lt {l : List Num} {i j : Nat} (v : Num) (h : l.length = i) (hj : j < i) :
    (storeAt l i v)[j]? = l[j]? := by
  rw [storeAt_append v h]
  exact List.getElem?_append_left (h ▸ hj)

theorem storeSample_of_canStore (h : canStore s) : storeSample s = some (storedSample s) := by
  obtain ⟨-, hrun, hdepth⟩ := h
  exact storeSample_some.mpr ⟨hrun, Nat.lt_of_lt_of_le hrun hdepth, rfl⟩

/-- On buffers in canonical form the store appends the sample to each axis (R154). -/
theorem storedSample_of_buffersWf (h : buffersWf s.buf s.idx = true) :
    storedSample s = { s with
      buf := ⟨s.buf.x ++ [s.acc.x], s.buf.y ++ [s.acc.y], s.buf.z ++ [s.acc.z]⟩
      idx := s.idx + 1 } := by
  obtain ⟨hx, hy, hz⟩ := buffersWf_iff.mp h
  simp only [storedSample, storeAt_append _ hx, storeAt_append _ hy, storeAt_append _ hz]

/-- A sample that can be stored is appended, and the delay is requested (R154, R157). -/
theorem storeAndWait_of_canStore (h : canStore s) :
    storeAndWait s = .next (enter .calWait { s with
      buf := ⟨s.buf.x ++ [s.acc.x], s.buf.y ++ [s.acc.y], s.buf.z ++ [s.acc.z]⟩
      idx := s.idx + 1 }) := by
  obtain ⟨hwf, hrun, hdepth⟩ := h
  rw [storeAndWait_eq hrun (Nat.lt_of_lt_of_le hrun hdepth), storedSample_of_buffersWf hwf]

end Store

/-! ### The means -/

section Means

variable {Num : Type} {C : Carrier Num}

/-- The mean of a run whose N entries all have a value: summed from entry 0 on, then divided once (R159). -/
theorem calMean_cons {v : Num} {rest : List Num} {n : BitVec 16} (h : (v :: rest).length = n.toNat) :
    calMean C (v :: rest) n n = some (C.div (rest.foldl C.add v) (C.num (n.toNat : Int))) := by
  have hread : readEntries (v :: rest) n.toNat n.toNat = some (v :: rest) := by
    rw [readEntries, if_pos ⟨Nat.le_refl _, Nat.le_of_eq h.symm⟩, ← h, List.take_length]
  rw [calMean, hread]
  rfl

/-- Over the rationals that mean is the sum of the entries over N (R159). -/
theorem calMean_exact {l : List NumVal} {n : BitVec 16} (hlen : l.length = n.toNat) (hpos : 1 ≤ n.toNat) :
    calMean .exact l n n = some (l.sum / (n.toNat : NumVal)) := by
  cases l with
  | nil => exact absurd (hlen ▸ hpos) (by decide)
  | cons v rest =>
    have hsum : rest.foldl Carrier.exact.add v = (v :: rest).sum :=
      (foldl_add_eq_add_sum rest v).trans List.sum_cons.symm
    rw [calMean_cons hlen, hsum, exact_div, exact_num, Int.cast_natCast]

theorem calMeans_exact {s : State} (hwf : buffersWf s.buf s.idx = true) (hidx : s.idx = s.n)
    (hpos : 1 ≤ s.n.toNat) :
    calMeans .exact s = some ⟨s.buf.x.sum / (s.n.toNat : NumVal), s.buf.y.sum / (s.n.toNat : NumVal),
      s.buf.z.sum / (s.n.toNat : NumVal)⟩ := by
  rw [hidx] at hwf
  obtain ⟨hx, hy, hz⟩ := buffersWf_iff.mp hwf
  rw [calMeans_some, hidx]
  exact ⟨calMean_exact hx hpos, calMean_exact hy hpos, calMean_exact hz hpos⟩

end Means

/-! ### The denominator -/

theorem biasCorrected_exact (m : Triple NumVal) : biasCorrected .exact m = m.z - 10 := rfl

theorem calX_exact (m : Triple NumVal) :
    calX .exact m = ((m.z - 10 - m.x) + (m.z - 10 - m.y)) / 2 := rfl

theorem calX_exact_closed (m : Triple NumVal) : calX .exact m = m.z - 10 - (m.x + m.y) / 2 := by
  rw [calX_exact]
  ring

/-- The denominator is zero exactly when twice the corrected Z mean is the sum of the other two (R160). -/
theorem calX_exact_eq_zero_iff (m : Triple NumVal) :
    calX .exact m = 0 ↔ 2 * (m.z - 10) = m.x + m.y := by
  rw [calX_exact_closed]
  constructor <;> intro h <;> linarith

/-! ### The steps of CALIB -/

/-- An error raised in a phase of CALIB discards the buffers (60_exceptions.md R184). -/
theorem raise_of_isCal {Num : Type} {s : State Num} (e : ErrCode) (hp : s.ph.isCal = true) :
    raise e s = { s with
      idx := 0, buf := ⟨[], [], []⟩, err := e, ph := .idle, trace := .completed e :: s.trace } := by
  simp only [raise, hp, if_true, Triple.const]

section Steps

variable {Num : Type} {C : Carrier Num} {s : State Num} {c : BitVec 16} {m : BitVec 32}

/-- PH chooses the step of a running CALIB, whatever its operands. -/
theorem calibOf_of_calSt (hp : s.ph = .calSt) : calibOf C c m s = calibStatus C s := by
  simp only [calibOf, hp]

theorem calibOf_of_calFifo (hp : s.ph = .calFifo) : calibOf C c m s = calibBurst C s := by
  simp only [calibOf, hp]

theorem calibOf_of_calWait (hp : s.ph = .calWait) : calibOf C c m s = calibWait s := by
  simp only [calibOf, hp]

theorem calibOf_of_calFin (hp : s.ph = .calFin) : calibOf C c m s = calibFinish C s := by
  simp only [calibOf, hp]

/-- The status step of CALIB on each kind of answer (R155). -/
theorem calibStatus_clear {st : Byte} {rest : List (PortAnswer Byte)} (h : s.env.statusAns = .bytes st :: rest)
    (hd : dataReady st = false) :
    calibStatus C s = storeAndWait (writeGated C (latchStatus st (tookStatus (.bytes st) rest s))) := by
  simp only [calibStatus, statusStep_clear h hd]

theorem calibStatus_set {st : Byte} {rest : List (PortAnswer Byte)} (h : s.env.statusAns = .bytes st :: rest)
    (hd : dataReady st = true) :
    calibStatus C s = .next (enter .calFifo (latchStatus st (tookStatus (.bytes st) rest s))) := by
  simp only [calibStatus, statusStep_set h hd]

theorem calibStatus_busError {rest : List (PortAnswer Byte)} (h : s.env.statusAns = .busError :: rest) :
    calibStatus C s = .next (raise .busError (tookStatus .busError rest s)) := by
  simp only [calibStatus, statusStep_busError h]

/-- The burst step of CALIB on each kind of answer (R156). -/
theorem calibBurst_bytes {d : Frame} {rest : List (PortAnswer Frame)} (h : s.env.fifoAns = .bytes d :: rest) :
    calibBurst C s = storeAndWait (writeSample C d (tookBurst (.bytes d) rest s)) := by
  simp only [calibBurst, burstStep_bytes h]

theorem calibBurst_busError {rest : List (PortAnswer Frame)} (h : s.env.fifoAns = .busError :: rest) :
    calibBurst C s = .next (raise .busError (tookBurst .busError rest s)) := by
  simp only [calibBurst, burstStep_busError h]

/-- The wait step of CALIB after the last sample, after another one, and while the delay runs (R158). -/
theorem calibWait_last {k : Nat} (h : s.env.delays = k + 1) (hn : s.idx = s.n) :
    calibWait s = .next (enter .calFin (tookDelay k s)) := by
  simp only [calibWait, takeDelay_some.mpr ⟨k, h, rfl⟩]
  exact if_pos hn

theorem calibWait_more {k : Nat} (h : s.env.delays = k + 1) (hn : s.idx ≠ s.n) :
    calibWait s = .next (enter .calSt (tookDelay k s)) := by
  simp only [calibWait, takeDelay_some.mpr ⟨k, h, rfl⟩]
  exact if_neg hn

theorem calibWait_pending (h : s.env.delays = 0) : calibWait s = .next s := by
  simp only [calibWait, takeDelay_none.mpr h]

/-- The final step of CALIB, by the zero test of the denominator (R161). -/
theorem calibFinish_degenerate {means : Triple Num} (h : calMeans C s = some means)
    (hz : C.isZero (calX C means) = true) : calibFinish C s = .next (raise .calibrationError s) := by
  simp only [calibFinish, h, hz, if_true]

theorem calibFinish_calibrated {means : Triple Num} (h : calMeans C s = some means)
    (hz : C.isZero (calX C means) = false) :
    calibFinish C s = .next (complete (discardBuffers (commitCalibration C means s))) := by
  simp only [calibFinish, h, hz, Bool.false_eq_true, if_false]

end Steps

theorem exec_calib (s : State) (c : BitVec 16) (m : BitVec 32) :
    exec (.calib c m) s = calibOf Carrier.exact c m s := rfl

theorem execOf_calib {Num : Type} (C : Carrier Num) (s : State Num) (c : BitVec 16) (m : BitVec 32) :
    execOf C (.calib c m) s = calibOf C c m s := rfl

/-- While the delay runs the machine's step takes the turn and nothing else (R158). -/
theorem step_of_pending_delay {s : State} {ts : List Turn} (hp : s.ph = .calWait) (hd : s.env.delays = 0)
    (ho : offers s ts) : step s = .next (tookTurn ts s) := by
  have hp' : (tookTurn ts s).ph = .calWait := hp
  have hrun : runningCommand (tookTurn ts s) = some (.calib s.n s.ms) := by
    simp only [runningCommand, hp', tookTurn_n, tookTurn_ms]
  rw [step_of_offers ho, advance_of_running hrun, exec_calib, calibOf_of_calWait hp']
  exact calibWait_pending hd

/-! ### The obligations -/

/-- Settles O32: on buffers in canonical form the store at entry IDX appends to each axis. -/
theorem storeSampleWritesEntryIdx : Obligations.StoreSampleWritesEntryIdx := by
  intro s h
  have hstore := storeSample_of_canStore h
  obtain ⟨hwf, hrun, -⟩ := h
  obtain ⟨hx, hy, hz⟩ := buffersWf_iff.mp hwf
  refine ⟨storedSample s, hstore, idx_succ_toNat hrun, storeSample_wf hwf hstore,
    getElem?_storeAt_self _ hx, getElem?_storeAt_self _ hy, getElem?_storeAt_self _ hz,
    fun i hi => ?_, rfl⟩
  exact ⟨getElem?_storeAt_of_lt _ hx hi, getElem?_storeAt_of_lt _ hy hi, getElem?_storeAt_of_lt _ hz hi⟩

/-- Settles O37: the first two equations are the definitions over the rationals; the closed form gives when the
denominator is degenerate. -/
theorem denominatorFormula : Obligations.DenominatorFormula := fun m =>
  ⟨biasCorrected_exact m, calX_exact m, calX_exact_closed m,
    (exact_isZero (calX .exact m)).trans (calX_exact_eq_zero_iff m)⟩

/-- Settles O55: canonical buffers with IDX = N hold exactly N entries on each axis. -/
theorem carrierMeans : Obligations.CarrierMeans := by
  intro Num C s vx vy vz rx ry rz hbuf hwf hidx
  rw [hidx, hbuf] at hwf
  obtain ⟨hx, hy, hz⟩ := buffersWf_iff.mp hwf
  rw [calMeans_some, hbuf, hidx]
  exact ⟨calMean_cons hx, calMean_cons hy, calMean_cons hz⟩

/-- Settles O56: the zero test of the carrier's denominator chooses the branch. -/
theorem carrierFinalStep : Obligations.CarrierFinalStep := by
  rintro Num C s c m meanX meanY meanZ zc x hp hmeans rfl rfl
  rw [execOf_calib, calibOf_of_calFin hp]
  constructor
  · intro hzero
    have hcal : s.ph.isCal = true := by rw [hp]; rfl
    rw [calibFinish_degenerate hmeans hzero, raise_of_isCal _ hcal]
  · intro hnonzero
    rw [calibFinish_calibrated hmeans hnonzero]
    rfl

/-- Settles O38: the final step over any carrier, at the rational means of a full run. -/
theorem calibFinalStep : Obligations.CalibFinalStep := by
  rintro s c m meanX meanY meanZ x hp hwf hidx hpos rfl rfl rfl rfl
  obtain ⟨hzero, hnonzero⟩ := carrierFinalStep NumVal .exact s c m _ _ _ _ _ hp
    (calMeans_exact hwf hidx hpos) rfl rfl
  rw [← execOf_exact]
  exact ⟨fun hx => hzero ((exact_isZero _).mpr hx), fun hx => hnonzero (exact_isZero_false.mpr hx)⟩

/-- Settles O33: the answer and bit 0 of the status byte choose the step's outcome; a gated sample is stored as
the zero vector, and a BusError discards the buffers. -/
theorem calibStatusStep : Obligations.CalibStatusStep := by
  intro s c m rest hp
  rw [exec_calib, calibOf_of_calSt hp]
  refine ⟨fun st hans hbit hs => ?_, fun st hans hbit => ?_, fun hans => ?_⟩
  · have hs' : canStore (writeGated .exact (latchStatus st (tookStatus (.bytes st) rest s))) := hs
    rw [calibStatus_clear hans hbit, storeAndWait_of_canStore hs']
    rfl
  · rw [calibStatus_set hans hbit]
    rfl
  · have hcal : (tookStatus .busError rest s).ph.isCal = true := by rw [tookStatus_ph, hp]; rfl
    rw [calibStatus_busError hans, raise_of_isCal _ hcal]
    rfl

/-- Settles O34: nine bytes are decoded, scaled and stored; a BusError discards the buffers. -/
theorem calibBurstStep : Obligations.CalibBurstStep := by
  intro s c m rest hp
  rw [exec_calib, calibOf_of_calFifo hp]
  constructor
  · rintro d sx sy sz hans hs rfl rfl rfl
    have hs' : canStore (writeSample .exact d (tookBurst (.bytes d) rest s)) := hs
    rw [calibBurst_bytes hans, storeAndWait_of_canStore hs']
    rfl
  · intro hans
    have hcal : (tookBurst .busError rest s).ph.isCal = true := by rw [tookBurst_ph, hp]; rfl
    rw [calibBurst_busError hans, raise_of_isCal _ hcal]
    rfl

/-- Settles O35: a completed delay is followed by the final step or the next sample; until then exec answers
the same state, and the machine's step the same but for the turn. -/
theorem calibWaitStep : Obligations.CalibWaitStep := by
  intro s c m hp
  rw [exec_calib, calibOf_of_calWait hp]
  refine ⟨fun k hdelay hlast => ?_, fun k hdelay hmore => ?_, fun hdelay => ?_⟩
  · rw [calibWait_last hdelay hlast]
    rfl
  · rw [calibWait_more hdelay hmore]
    rfl
  · exact ⟨calibWait_pending hdelay, fun ts => step_of_pending_delay hp hdelay⟩

end Sys2Proof.Machine
end

section
/-! Errors (60_exceptions.md R184): what raising a code writes, by whether the command is a CALIB. -/
namespace Sys2Proof.Machine

/-- Settles O42: whether the phase is one of CALIB decides if the buffers are discarded. -/
theorem raiseEffect : Obligations.RaiseEffect := by
  intro e s
  constructor
  · intro hother
    exact raise_of_not_isCal e hother
  · intro hcal
    exact raise_of_isCal e hcal

end Sys2Proof.Machine
end

section
/-! The decoder and the encoder (30_encoding.md R90, R94, R97, R99): a word is its four fields side by side, so
the fields that the decoder asks for make the word up. -/
namespace Sys2Proof

/-- Two words built from parts of the same widths are equal when their parts are. -/
theorem bitVec_append_inj {m n : Nat} {a b : BitVec m} {c d : BitVec n} :
    a ++ c = b ++ d ↔ a = b ∧ c = d := by
  constructor
  · intro h
    have hhigh := congrArg (BitVec.extractLsb' n m) h
    have hlow := congrArg (BitVec.extractLsb' 0 n) h
    rw [BitVec.extractLsb'_append_eq_left, BitVec.extractLsb'_append_eq_left] at hhigh
    rw [BitVec.extractLsb'_append_eq_right, BitVec.extractLsb'_append_eq_right] at hlow
    exact ⟨hhigh, hlow⟩
  · rintro ⟨rfl, rfl⟩
    rfl

/-- A word is its four fields, OPC uppermost (R90). -/
theorem fields_append (w : CmdWord) : opcOf w ++ rsvOf w ++ countOf w ++ intervalOf w = w := by
  have hcount : w.extractLsb' 48 16 ++ countOf w = w.extractLsb' 32 32 :=
    BitVec.extractLsb'_append_extractLsb'_eq_extractLsb' (by rfl)
  have hword : w.extractLsb' 32 32 ++ intervalOf w = w.extractLsb' 0 64 :=
    BitVec.extractLsb'_append_extractLsb'_eq_extractLsb' (by rfl)
  rw [opcOf_append_rsvOf, hcount, hword, BitVec.extractLsb'_eq_self]

/-- A word is written as OPC above fifty-six bits exactly when these are its parts. -/
theorem eq_append_iff {w : CmdWord} {opc : BitVec 8} {low : BitVec 56} :
    w = opc ++ low ↔ opcOf w = opc ∧ lowBits w = low := by
  rw [← bitVec_append_inj, opcOf_append_lowBits]

/-- A word is written as four fields exactly when these are its fields. -/
theorem eq_fields_append_iff {w : CmdWord} {opc rsv : BitVec 8} {count : BitVec 16} {interval : BitVec 32} :
    w = opc ++ rsv ++ count ++ interval ↔
      opcOf w = opc ∧ rsvOf w = rsv ∧ countOf w = count ∧ intervalOf w = interval := by
  rw [← and_assoc, ← and_assoc, ← bitVec_append_inj, ← bitVec_append_inj, ← bitVec_append_inj, fields_append]

end Sys2Proof

namespace Sys2Proof.Machine

/-- Settles O9: each command asks for the fields that make up its word. -/
theorem decodeExactlyInvertsEncode : Obligations.DecodeExactlyInvertsEncode := by
  intro w i
  cases i with
  | rdacc =>
    have hword : encode .rdacc = 0x01#8 ++ 0#56 := by decide
    rw [decode_eq_rdacc_iff, hword, eq_append_iff]
    rfl
  | rdtemp =>
    have hword : encode .rdtemp = 0x02#8 ++ 0#56 := by decide
    rw [decode_eq_rdtemp_iff, hword, eq_append_iff]
    rfl
  | calib count interval =>
    rw [decode_eq_calib_iff, encode, eq_fields_append_iff]
    rfl

/-- Each of the three patterns decodes to an admissible command (R94, R99). -/
theorem decode_of_legalWord {depth : Nat} {w : CmdWord} (h : legalWord depth w) :
    ∃ i, decode w = .command i ∧ i.wellFormed depth = true := by
  rcases h with rfl | rfl | ⟨htop, hpos, hdepth⟩
  · exact ⟨.rdacc, by decide, rfl⟩
  · exact ⟨.rdtemp, by decide, rfl⟩
  · have hparts : opcOf w ++ rsvOf w = 0x03#8 ++ 0x00#8 := (opcOf_append_rsvOf w).trans htop
    obtain ⟨hopc, hrsv⟩ := bitVec_append_inj.mp hparts
    exact ⟨.calib (countOf w) (intervalOf w), decode_eq_calib_iff.mpr ⟨hopc, hrsv, rfl, rfl⟩,
      Bool.and_eq_true_iff.mpr ⟨decide_eq_true hpos, decide_eq_true hdepth⟩⟩

/-- Settles O10: an admissible command's word has one of the patterns, and each pattern decodes to one. -/
theorem legalWordsAreTheThreePatterns : Obligations.LegalWordsAreTheThreePatterns := by
  intro depth w
  constructor
  · rintro ⟨i, hd, hw⟩
    exact legalWord_of_decode hd hw
  · exact decode_of_legalWord

/-- Settles O8: the decoder computes on each of the six words. -/
theorem writtenWordsDecode : Obligations.WrittenWordsDecode := by
  unfold Obligations.WrittenWordsDecode
  decide

end Sys2Proof.Machine
end

section
/-! The invariant (Safety.lean): it holds at reset, every step keeps it, and under it no step faults, over any
carrier; and what the machine's invariant adds over the rationals (10_state.md R30, 70_reset_and_hazards.md
R230). -/
namespace Sys2Proof.Machine

variable {Num : Type} {C : Carrier Num}

/-! ### The registers that a step writes, over any carrier -/

/-- RAW and ACC are kept, written together from one burst, or zeroed together (R119, R120, R155, R156). -/
theorem StepCase.reading {s t : State Num} (h : StepCase C s t) :
    (t.raw = s.raw ∧ t.acc = s.acc) ∨
      (∃ d, t.raw = (decodeFrame d).map tc32 ∧ t.acc = scaleSample C (decodeFrame d) s.scale) ∨
      (t.raw = Triple.const 0 ∧ t.acc = Triple.const (C.num 0)) := by
  cases h with
  | accGated | calGated => exact .inr (.inr ⟨rfl, rfl⟩)
  | accSampled d | calSampled d => exact .inr (.inl ⟨d, rfl, rfl⟩)
  | _ => exact .inl ⟨rfl, rfl⟩

/-- SCALE and OFF are kept, or written by a successful CAL_FIN step, whose denominator passed the zero test
(R161). -/
theorem StepCase.scale {s t : State Num} (h : StepCase C s t) :
    (t.scale = s.scale ∧ t.off = s.off) ∨
      ∃ m, s.ph = .calFin ∧ C.isZero (calX C m) = false ∧ t.scale = C.div (C.num 1) (calX C m) ∧
        t.ph = .idle ∧ t.err = .ok := by
  cases h with
  | calibrated m hp _ hz => exact .inr ⟨m, hp, hz, rfl, rfl, rfl⟩
  | _ => exact .inl ⟨rfl, rfl⟩

/-! ### What the invariant says of the data, apart from phase, IDX and history -/

/-- The three RAW registers are sign-extended (R24). -/
def rawTripleSigned (r : Triple (BitVec 32)) : Prop := rawSigned r.x ∧ rawSigned r.y ∧ rawSigned r.z

/-- The part of RunInv that names neither the phase nor the history: BUF_DEPTH, the buffers and RAW. -/
def dataInv (s : State Num) : Prop :=
  (1 ≤ s.bufDepth ∧ s.bufDepth ≤ 65535) ∧ buffersWf s.buf s.idx = true ∧ rawTripleSigned s.raw

theorem RunInv.data {s : State Num} (h : RunInv s) : dataInv s := ⟨h.depth, h.buffers, h.raw⟩

theorem rawTripleSigned_zero : rawTripleSigned (Triple.const 0) := by
  have hzero : rawSigned 0 := by unfold rawSigned; decide
  exact ⟨hzero, hzero, hzero⟩

/-- The register form of a decoded field is sign-extended (R115). -/
theorem rawSigned_tc32_sext20 (raw : BitVec 20) : rawSigned (tc32 (sext20 raw)) := by
  rw [rawSigned, extractLsb'_tc32_sext20, tc32_sext20]

theorem rawTripleSigned_decodeFrame (d : Frame) : rawTripleSigned ((decodeFrame d).map tc32) :=
  ⟨rawSigned_tc32_sext20 _, rawSigned_tc32_sext20 _, rawSigned_tc32_sext20 _⟩

theorem dataInv_writeGated {s : State Num} (h : dataInv s) : dataInv (writeGated C s) :=
  ⟨h.1, h.2.1, rawTripleSigned_zero⟩

theorem dataInv_writeSample {s : State Num} (d : Frame) (h : dataInv s) : dataInv (writeSample C d s) :=
  ⟨h.1, h.2.1, rawTripleSigned_decodeFrame d⟩

theorem dataInv_discardBuffers {s : State Num} (h : dataInv s) : dataInv (discardBuffers s) :=
  ⟨h.1, discardBuffers_wf s, h.2.2⟩

theorem dataInv_storedSample {s : State Num} (h : dataInv s) (hn : s.idx.toNat < s.n.toNat)
    (hb : s.idx.toNat < s.bufDepth) : dataInv (storedSample s) :=
  ⟨h.1, storeSample_wf h.2.1 (storeSample_some.mpr ⟨hn, hb, rfl⟩), h.2.2⟩

/-! ### IDX, by phase -/

theorem Phase.isCal_eq_false {p : Phase} :
    p.isCal = false ↔ p = .idle ∨ p = .accSt ∨ p = .accFifo ∨ p = .tmpRd := by
  cases p <;> decide

/-- Outside CALIB no sample is stored. -/
theorem RunInv.idx_eq_zero {s : State Num} (h : RunInv s) (hp : s.ph.isCal = false) : s.idx.toNat = 0 :=
  (idxFits_no_run (Phase.isCal_eq_false.mp hp)).mp h.idx

/-- While CALIB samples, entry IDX belongs to the run and to the buffers. -/
theorem RunInv.canStore {s : State Num} (h : RunInv s) (hp : s.ph = .calSt ∨ s.ph = .calFifo) : canStore s :=
  have hcal : s.ph.isCal = true := by rcases hp with hp | hp <;> rw [hp] <;> rfl
  ⟨h.buffers, (idxFits_sampling hp).mp h.idx, (h.run hcal).2⟩

/-! ### The three ways a step ends: a command completes, an error is raised, a phase is entered -/

/-- Entering a phase after an answer, a completion or an acceptance leaves open the request it issues. -/
theorem openRequest_issueEvents {es : List (Event Num)} (p : Phase) (ms : BitVec 32)
    (h : openRequest es = none) : openRequest (issueEvents p ms ++ es) = p.request ms := by
  cases p with
  | idle | calFin => exact h
  | _ => rfl

theorem runInv_complete {s : State Num} (h : dataInv s) (hidx : s.idx.toNat = 0) : RunInv (complete s) where
  depth := h.1
  buffers := h.2.1
  idx := decide_eq_true hidx
  run := nofun
  raw := h.2.2
  request := rfl

theorem runInv_raise {s : State Num} (e : ErrCode) (h : dataInv s)
    (hidx : s.ph.isCal = false → s.idx.toNat = 0) : RunInv (raise e s) where
  depth := h.1
  buffers := raise_wf e h.2.1
  idx := by
    refine decide_eq_true ?_
    rw [raise_idx]
    cases hcal : s.ph.isCal with
    | true => rfl
    | false => exact hidx hcal
  run := nofun
  raw := h.2.2
  request := rfl

theorem runInv_enter {s : State Num} {p : Phase} (h : dataInv s) (hidx : idxFits (enter p s) = true)
    (hrun : p.isCal = true → 1 ≤ s.n.toNat ∧ s.n.toNat ≤ s.bufDepth) (hopen : openRequest s.trace = none) :
    RunInv (enter p s) where
  depth := h.1
  buffers := h.2.1
  idx := hidx
  run := hrun
  raw := h.2.2
  request := openRequest_issueEvents p s.ms hopen

/-! ### Every step keeps the invariant -/

theorem runInv_resetOf (C : Carrier Num) : RunInv (resetOf C) where
  depth := ⟨(by decide : 1 ≤ 65535), Nat.le_refl 65535⟩
  buffers := rfl
  idx := rfl
  run := nofun
  raw := rawTripleSigned_zero
  request := rfl

theorem runInv_hardReset {s : State Num} (h : RunInv s) : RunInv (hardReset C s) where
  depth := h.depth
  buffers := hardReset_wf C s
  idx := rfl
  run := nofun
  raw := rawTripleSigned_zero
  request := rfl

theorem runInv_tookTurn {s : State Num} (ts : List Turn) (h : RunInv s) : RunInv (tookTurn ts s) :=
  ⟨h.depth, h.buffers, h.idx, h.run, h.raw, h.request⟩

/-- A stored sample is followed by the delay (R154, R157). -/
theorem runInv_calWait {s : State Num} (h : dataInv s) (hn : s.idx.toNat < s.n.toNat)
    (hb : s.n.toNat ≤ s.bufDepth) (hopen : openRequest s.trace = none) :
    RunInv (enter .calWait (storedSample s)) := by
  have hidx : (s.idx + 1).toNat = s.idx.toNat + 1 := idx_succ_toNat hn
  refine runInv_enter (dataInv_storedSample h hn (by omega)) ((idxFits_calWait rfl).mpr ?_) (fun _ => ?_) hopen
  · rw [enter_idx, storedSample_idx, hidx, enter_n, storedSample_n]
    omega
  · rw [storedSample_n, storedSample_bufDepth]
    omega

/-- Every case of a step keeps the invariant. -/
theorem StepCase.runInv {s t : State Num} (hs : RunInv s) (h : StepCase C s t) : RunInv t := by
  have hdata := hs.data
  have hzero := hs.idx_eq_zero
  have hidle : s.ph = .idle → s.idx.toNat = 0 ∧ openRequest s.trace = none := fun hp =>
    ⟨hzero (by rw [hp]; rfl), by rw [hs.request, hp]; rfl⟩
  cases h with
  | stay => exact hs
  | hostRead => exact ⟨hs.depth, hs.buffers, hs.idx, hs.run, hs.raw, hs.request⟩
  | acceptRdacc _ _ hp | acceptRdtemp _ _ hp =>
    obtain ⟨hidx, hopen⟩ := hidle hp
    exact runInv_enter hdata (decide_eq_true hidx) nofun hopen
  | acceptCalib _ _ c m hp _ _ hadm =>
    obtain ⟨hpos, hdepth⟩ := Bool.and_eq_true_iff.mp hadm
    have hcount := And.intro (of_decide_eq_true hpos) (of_decide_eq_true hdepth)
    exact runInv_enter (dataInv_discardBuffers hdata) (decide_eq_true hcount.1) (fun _ => hcount) (hidle hp).2
  | refuseWord | statusBusError | burstBusError | tempBusError | degenerate =>
    exact runInv_raise _ hdata hzero
  | accGated _ _ hp => exact runInv_complete (dataInv_writeGated hdata) (hzero (by rw [hp]; rfl))
  | accSampled d _ hp => exact runInv_complete (dataInv_writeSample d hdata) (hzero (by rw [hp]; rfl))
  | tempRead _ _ hp => exact runInv_complete hdata (hzero (by rw [hp]; rfl))
  | accReady _ _ hp => exact runInv_enter hdata (decide_eq_true (hzero (by rw [hp]; rfl))) nofun rfl
  | calGated _ _ hp =>
    obtain ⟨-, hn, hb⟩ := hs.canStore (.inl hp)
    exact runInv_calWait (dataInv_writeGated hdata) hn hb rfl
  | calSampled d _ hp =>
    obtain ⟨-, hn, hb⟩ := hs.canStore (.inr hp)
    exact runInv_calWait (dataInv_writeSample d hdata) hn hb rfl
  | calReady _ _ hp =>
    have hn := (idxFits_sampling (.inl hp)).mp hs.idx
    exact runInv_enter hdata (decide_eq_true hn) (fun _ => hs.run (by rw [hp]; rfl)) rfl
  | calLoop k hp _ hne =>
    have hle := ((idxFits_calWait hp).mp hs.idx).2
    have hn : s.idx.toNat < s.n.toNat := Nat.lt_of_le_of_ne hle fun h => hne (BitVec.eq_of_toNat_eq h)
    exact runInv_enter hdata (decide_eq_true hn) (fun _ => hs.run (by rw [hp]; rfl)) rfl
  | calEnd k hp _ heq =>
    exact runInv_enter hdata (decide_eq_true (congrArg BitVec.toNat heq)) (fun _ => hs.run (by rw [hp]; rfl)) rfl
  | calibrated => exact runInv_complete (dataInv_discardBuffers hdata) rfl

theorem runInv_stepOf {s t : State Num} (hs : RunInv s) (h : stepOf C s = .next t) : RunInv t := by
  have hcase := stepOf_cases h
  have hturn := runInv_tookTurn s.env.turns.tail hs
  rw [takeTurn_snd] at hcase
  rcases hcase with ⟨-, rfl⟩ | hcase
  · exact runInv_hardReset hturn
  · exact hcase.runInv hturn

/-! ### Under the invariant no step faults -/

theorem exists_calMean {l : List Num} {n : BitVec 16} (hlen : l.length = n.toNat) (hpos : 1 ≤ n.toNat) :
    ∃ mean, calMean C l n n = some mean := by
  cases l with
  | nil =>
    rw [← hlen] at hpos
    exact absurd hpos (Nat.not_succ_le_zero 0)
  | cons v rest => exact ⟨_, calMean_cons hlen⟩

/-- In CAL_FIN every entry of the run has a value, so there are means. -/
theorem RunInv.exists_calMeans {s : State Num} (h : RunInv s) (hp : s.ph = .calFin) :
    ∃ m, calMeans C s = some m := by
  have hidx : s.idx = s.n := BitVec.eq_of_toNat_eq ((idxFits_calFin hp).mp h.idx)
  have hpos : 1 ≤ s.n.toNat := (h.run (by rw [hp]; rfl)).1
  have hwf := h.buffers
  rw [hidx] at hwf
  obtain ⟨hx, hy, hz⟩ := buffersWf_iff.mp hwf
  obtain ⟨mx, hmx⟩ := exists_calMean (C := C) hx hpos
  obtain ⟨my, hmy⟩ := exists_calMean (C := C) hy hpos
  obtain ⟨mz, hmz⟩ := exists_calMean (C := C) hz hpos
  refine ⟨⟨mx, my, mz⟩, calMeans_some.mpr ?_⟩
  rw [hidx]
  exact ⟨hmx, hmy, hmz⟩

theorem not_faults_next (s : State Num) : ¬ faults (.next s : Outcome Num) := nofun

theorem not_faults_refused (r : Refusal) : ¬ faults (.refused r : Outcome Num) := nofun

theorem not_faults_storeAndWait {s : State Num} (h : canStore s) : ¬ faults (storeAndWait s) := by
  rw [storeAndWait_of_canStore h]
  exact not_faults_next _

theorem not_faults_rdaccOf (s : State Num) : ¬ faults (rdaccOf C s) := by
  unfold rdaccOf
  split
  case h_1 => exact not_faults_next _
  case h_2 => unfold rdaccStatus; split <;> exact not_faults_next _
  case h_3 => unfold rdaccBurst; split <;> exact not_faults_next _
  all_goals exact not_faults_refused _

theorem not_faults_rdtempOf (s : State Num) : ¬ faults (rdtempOf C s) := by
  unfold rdtempOf
  split
  case h_1 => exact not_faults_next _
  case h_2 => unfold rdtempRead; split <;> exact not_faults_next _
  all_goals exact not_faults_refused _

/-- The two faults of CALIB need an entry that cannot be stored, or a run without means (R33, R154). -/
theorem RunInv.not_faults_calibOf {s : State Num} (h : RunInv s) (c : BitVec 16) (m : BitVec 32) :
    ¬ faults (calibOf C c m s) := by
  unfold calibOf
  split
  case h_1 => unfold calibAccept; split <;> exact not_faults_next _
  case h_2 hp =>
    unfold calibStatus
    split
    case h_3 hs =>
      obtain ⟨st, rest, -, -, rfl⟩ := statusStep_gated hs
      exact not_faults_storeAndWait (h.canStore (.inl hp))
    all_goals exact not_faults_next _
  case h_3 hp =>
    unfold calibBurst
    split
    case h_3 hs =>
      obtain ⟨d, rest, -, rfl⟩ := burstStep_sampled hs
      exact not_faults_storeAndWait (h.canStore (.inr hp))
    all_goals exact not_faults_next _
  case h_4 =>
    unfold calibWait
    split
    · exact not_faults_next _
    · split <;> exact not_faults_next _
  case h_5 hp =>
    obtain ⟨means, hmeans⟩ := h.exists_calMeans (C := C) hp
    unfold calibFinish
    rw [hmeans]
    dsimp only
    split <;> exact not_faults_next _
  all_goals exact not_faults_refused _

theorem RunInv.not_faults_execOf {s : State Num} (h : RunInv s) (i : Instr) : ¬ faults (execOf C i s) := by
  cases i with
  | rdacc => exact not_faults_rdaccOf s
  | rdtemp => exact not_faults_rdtempOf s
  | calib c m => exact h.not_faults_calibOf c m

theorem runInv_tookCommand {s : State Num} (w : CmdWord) (ws : List CmdWord) (h : RunInv s) :
    RunInv (tookCommand w ws s) :=
  ⟨h.depth, h.buffers, h.idx, h.run, h.raw, h.request⟩

theorem RunInv.not_faults_advance {s : State Num} (h : RunInv s) : ¬ faults (advance (execOf C) s) := by
  unfold advance
  split
  · exact h.not_faults_execOf _
  · unfold accept
    split
    · exact not_faults_next _
    · next hw =>
      obtain ⟨ws, -, rfl⟩ := takeCommand_some.mp hw
      split
      · exact (runInv_tookCommand _ ws h).not_faults_execOf _
      · exact not_faults_next _

theorem not_faults_hostRead (k : Nat) (s : State Num) : ¬ faults (hostRead k s) := by
  unfold hostRead
  split
  · exact not_faults_refused _
  · split
    · exact not_faults_refused _
    · exact not_faults_next _

theorem RunInv.not_faults_stepOf {s : State Num} (h : RunInv s) : ¬ faults (stepOf C s) := by
  have hturn : RunInv (takeTurn s).2 := by rw [takeTurn_snd]; exact runInv_tookTurn _ h
  unfold stepOf stepWith
  split
  · next hs =>
    rw [hs] at hturn
    exact hturn.not_faults_advance
  · next hs =>
    rw [hs] at hturn
    split
    · exact hturn.not_faults_advance
    · exact not_faults_next _
  · exact not_faults_hostRead _ _
  · exact not_faults_next _

/-- Settles O58: the reset state, the cases of a step, and the absence of faults, each a lemma. -/
theorem runInvariantForEveryCarrier : Obligations.RunInvariantForEveryCarrier := fun _ C =>
  ⟨runInv_resetOf C, fun _ hs => ⟨fun _ => runInv_stepOf hs, hs.not_faults_stepOf⟩⟩

/-! ### What the machine's invariant adds: ACC is RAW times a scale, and SCALE is not zero -/

/-- A step of the machine keeps RAW and ACC, writes both from one burst, or zeroes both. -/
theorem step_reading {s t : State} (h : step s = .next t) :
    (t.raw = s.raw ∧ t.acc = s.acc) ∨
      (∃ d, t.raw = (decodeFrame d).map tc32 ∧ t.acc = scaleSample .exact (decodeFrame d) s.scale) ∨
      (t.raw = Triple.const 0 ∧ t.acc = Triple.const (Carrier.exact.num 0)) := by
  have hcase := step_cases h
  rw [takeTurn_snd] at hcase
  rcases hcase with ⟨-, rfl⟩ | hcase
  · exact .inr (.inr ⟨rfl, rfl⟩)
  · exact hcase.reading

/-- The register form of a decoded field reads back as its value (R115). -/
theorem toInt_tc32_sext20 (raw : BitVec 20) : (tc32 (sext20 raw)).toInt = sext20 raw := by
  rw [tc32_sext20, sext20_eq_toInt, BitVec.toInt_signExtend_of_le (by decide)]

theorem map_toInt_decodeFrame (d : Frame) : ((decodeFrame d).map tc32).map BitVec.toInt = decodeFrame d :=
  Triple.ext (toInt_tc32_sext20 _) (toInt_tc32_sext20 _) (toInt_tc32_sext20 _)

/-- The zero vector is the zero reading at any scale (R119). -/
theorem scaleSample_zero (q : NumVal) :
    scaleSample .exact ((Triple.const (0 : BitVec 32)).map BitVec.toInt) q = Triple.const (Carrier.exact.num 0) := by
  have hzero : Carrier.exact.mul (Carrier.exact.num 0) q = Carrier.exact.num 0 := by simp
  exact Triple.ext hzero hzero hzero

/-- After every step ACC is RAW times a scale, if it was before. -/
theorem reading_step {s t : State} (h : step s = .next t)
    (hs : ∃ q, s.acc = scaleSample .exact (s.raw.map BitVec.toInt) q) :
    ∃ q, t.acc = scaleSample .exact (t.raw.map BitVec.toInt) q := by
  rcases step_reading h with ⟨hraw, hacc⟩ | ⟨d, hraw, hacc⟩ | ⟨hraw, hacc⟩
  · rw [hraw, hacc]
    exact hs
  · exact ⟨s.scale, by rw [hraw, hacc, map_toInt_decodeFrame]⟩
  · exact ⟨1, by rw [hraw, hacc, scaleSample_zero]⟩

/-- A new SCALE is 1 over a denominator that is not zero, so it is not zero (R161, R230). -/
theorem scale_ne_zero_step {s t : State} (h : step s = .next t) (hs : s.scale ≠ 0) : t.scale ≠ 0 := by
  have hcase := step_cases h
  rw [takeTurn_snd] at hcase
  rcases hcase with ⟨-, rfl⟩ | hcase
  · exact one_ne_zero
  · rcases hcase.scale with ⟨hscale, -⟩ | ⟨m, -, hx, hscale, -⟩
    · rw [hscale]
      exact hs
    · rw [hscale]
      exact div_ne_zero one_ne_zero (exact_isZero_false.mp hx)

/-- Settles O48: RunInv by the cases of a step, the reading and SCALE by what a step writes to them. -/
theorem stepKeepsInvariant : Obligations.StepKeepsInvariant := fun _ _ hs h =>
  { toRunInv := runInv_stepOf hs.toRunInv ((stepOf_exact _).trans h)
    reading := reading_step h hs.reading
    scale := scale_ne_zero_step h hs.scale }

/-- Settles O47: the reset state has RunInv over any carrier, a zero reading, and SCALE = 1. -/
theorem resetMeetsInvariant : Obligations.ResetMeetsInvariant :=
  { toRunInv := runInv_resetOf .exact
    reading := ⟨1, (scaleSample_zero 1).symm⟩
    scale := one_ne_zero }

/-- Settles O49: the first step does not fault, and the rest of the run starts under the invariant again. -/
theorem invariantRulesOutFaults : Obligations.InvariantRulesOutFaults := by
  intro s k hs
  unfold SafeRun
  induction k generalizing s with
  | zero => exact not_faults_next s
  | succ k ih =>
    have hstep : ¬ faults (step s) := by rw [← stepOf_exact]; exact hs.toRunInv.not_faults_stepOf
    cases h : step s with
    | next t =>
      rw [run_succ_next k h]
      exact ih t (stepKeepsInvariant s t hs h)
    | fault r => exact absurd ⟨r, h⟩ hstep
    | refused r =>
      rw [run_succ_refused k h]
      exact not_faults_refused r

end Sys2Proof.Machine
end

section
/-! What every step of the machine says of the completion code, of SCALE and OFF, of the reading, and of the phase
(10_state.md R21, R22, R28, R30, R37; 60_exceptions.md R183, R185, R187). -/
namespace Sys2Proof.Machine

variable {Num : Type} {C : Carrier Num}

/-! ### Completions -/

/-- The phases whose steps can complete a command with a code (60_exceptions.md R183, R187). -/
def endsFrom : ErrCode → Phase → Prop
  | .invalidArgument, p => p = .idle
  | .busError, p => p = .accSt ∨ p = .accFifo ∨ p = .tmpRd ∨ p = .calSt ∨ p = .calFifo
  | .calibrationError, p => p = .calFin
  | .ok, p => p = .accSt ∨ p = .accFifo ∨ p = .tmpRd ∨ p = .calFin

/-- Between `s` and `t` a completion is recorded last, with the code written to ERR, and PH is IDLE. -/
def completes (s t : State Num) : Prop :=
  ∃ e es, t.trace = .completed e :: (es ++ s.trace) ∧ t.err = e ∧ t.ph = .idle ∧ endsFrom e s.ph

/-- Between `s` and `t` no completion is recorded last, ERR is kept, and PH does not come to IDLE. -/
def continues (s t : State Num) : Prop :=
  (∀ e es, t.trace ≠ .completed e :: (es ++ s.trace)) ∧ t.err = s.err ∧ (t.ph = .idle → s.ph = .idle)

theorem continues_refl (s : State Num) : continues s s := by
  refine ⟨fun e es h => ?_, rfl, id⟩
  have hlen := congrArg List.length h
  rw [List.length_cons, List.length_append] at hlen
  omega

/-- Each case of a step ends a command from a phase of its code, or goes on. -/
theorem StepCase.completes_or_continues {s t : State Num} (h : StepCase C s t) :
    completes s t ∨ continues s t := by
  cases h with
  | stay => exact .inr (continues_refl s)
  | refuseWord w _ hp => exact .inl ⟨_, [.accepted w], rfl, rfl, rfl, hp⟩
  | statusBusError _ hp =>
    exact .inl ⟨_, [_], rfl, rfl, rfl, hp.elim .inl fun hp => .inr (.inr (.inr (.inl hp)))⟩
  | burstBusError _ hp =>
    exact .inl ⟨_, [_], rfl, rfl, rfl, hp.elim (fun hp => .inr (.inl hp)) fun hp => .inr (.inr (.inr (.inr hp)))⟩
  | tempBusError _ hp => exact .inl ⟨_, [_], rfl, rfl, rfl, .inr (.inr (.inl hp))⟩
  | accGated _ _ hp => exact .inl ⟨_, [_], rfl, rfl, rfl, .inl hp⟩
  | accSampled _ _ hp => exact .inl ⟨_, [_], rfl, rfl, rfl, .inr (.inl hp)⟩
  | tempRead _ _ hp => exact .inl ⟨_, [_], rfl, rfl, rfl, .inr (.inr (.inl hp))⟩
  | degenerate _ hp => exact .inl ⟨_, [], rfl, rfl, rfl, hp⟩
  | calibrated _ hp => exact .inl ⟨_, [], rfl, rfl, rfl, .inr (.inr (.inr hp))⟩
  | hostRead => exact .inr ⟨fun _ _ h => (by cases h), rfl, id⟩
  | _ => exact .inr ⟨fun _ _ h => (by cases h), rfl, nofun⟩

/-- A step of the machine is a hardware reset, ends a command, or goes on. -/
theorem step_completes_or_continues {s t : State} (h : step s = .next t) :
    (s.env.turns.head? = some .reset ∧ t.trace = .hardReset :: s.trace) ∨
      completes s t ∨ continues s t := by
  have hcase := step_cases h
  rw [takeTurn_snd] at hcase
  rcases hcase with ⟨hreset, rfl⟩ | hcase
  · exact .inl ⟨hreset, rfl⟩
  · exact .inr hcase.completes_or_continues

/-- Settles O5: a step that is no reset ends a command, writing its code, or goes on. -/
theorem errChangesOnlyWhenACommandEnds : Obligations.ErrChangesOnlyWhenACommandEnds := by
  intro s t h hreset
  rcases step_completes_or_continues h with ⟨hturn, -⟩ | ⟨e, es, htrace, herr, hidle, -⟩ | ⟨-, herr, hidle⟩
  · exact absurd hturn hreset
  · exact .inl ⟨e, es, htrace, herr, hidle⟩
  · exact .inr ⟨herr, hidle⟩

/-- Settles O44: a step whose last event is a completion ends a command, from a phase of the code. -/
theorem errorsComeFromTheirSteps : Obligations.ErrorsComeFromTheirSteps := by
  intro s t e es h htrace
  have hends : endsFrom e s.ph := by
    rcases step_completes_or_continues h with ⟨-, hreset⟩ | ⟨e', es', htrace', -, -, hends⟩ | ⟨hnone, -⟩
    · cases htrace.symm.trans hreset
    · obtain rfl : e = e' := Event.completed.inj (List.cons.inj (htrace.symm.trans htrace')).1
      exact hends
    · exact absurd htrace (hnone e es)
  refine ⟨?_, ?_, ?_, ?_⟩ <;> (rintro rfl; exact hends)

/-! ### SCALE, OFF and the reading -/

/-- Settles O45: hardware reset apart, SCALE and OFF are kept or the step is a successful CAL_FIN step. -/
theorem scaleWrittenOnlyBySuccessfulCalib : Obligations.ScaleWrittenOnlyBySuccessfulCalib := by
  intro s t h hreset
  have hcase := step_cases h
  rw [takeTurn_snd] at hcase
  rcases hcase with ⟨hturn, -⟩ | hcase
  · exact absurd hturn hreset
  · rcases hcase.scale with hkept | ⟨m, hfin, -, -, hidle, hok⟩
    · exact .inl hkept
    · exact .inr ⟨hfin, hidle, hok⟩

/-- Settles O46: the RAW written from a burst reads back as the burst's values, which ACC scales. -/
theorem readingIsRawTimesScale : Obligations.ReadingIsRawTimesScale := by
  intro s t h
  rcases step_reading h with hkept | ⟨d, hraw, hacc⟩ | hzero
  · exact .inl hkept
  · have hscaled : t.acc = scaleSample .exact (t.raw.map BitVec.toInt) s.scale := by
      rw [hraw, hacc, map_toInt_decodeFrame]
    exact .inr (.inl hscaled)
  · exact .inr (.inr hzero)

/-! ### The phase graph -/

/-- No case of a step takes a transition that the graph does not have (R37). -/
theorem StepCase.phase {s t : State Num} (h : StepCase C s t) :
    t.ph = s.ph ∨ phaseEdge s.ph t.ph = true := by
  cases h with
  | stay | hostRead => exact .inl rfl
  | statusBusError _ hp | burstBusError _ hp => rcases hp with hp | hp <;> exact .inr (by rw [hp]; rfl)
  | acceptRdacc _ _ hp | acceptRdtemp _ _ hp | acceptCalib _ _ _ _ hp | refuseWord _ _ hp | tempBusError _ hp
  | accGated _ _ hp | accReady _ _ hp | accSampled _ _ hp | tempRead _ _ hp | calGated _ _ hp | calReady _ _ hp
  | calSampled _ _ hp | calLoop _ hp | calEnd _ hp | degenerate _ hp | calibrated _ hp =>
    exact .inr (by rw [hp]; rfl)

/-- A state in phase `p` of a run of two samples, `k` of them stored and all zero, with the inputs `e`, whose
history holds the phase's request only. -/
def graphState (p : Phase) (k : BitVec 16) (e : Env) : State :=
  { State.reset with
    ph := p
    n := 2
    idx := k
    buf := Triple.const (List.replicate k.toNat 0)
    env := e
    trace := issueEvents p 0 }

/-- It meets the invariant when `k` samples can be stored in phase `p`. -/
theorem inv_graphState {p : Phase} {k : BitVec 16} {e : Env} (h : idxFits (graphState p k e) = true) :
    Inv (graphState p k e) where
  depth := (runInv_resetOf .exact).depth
  buffers := buffersWf_iff.mpr ⟨List.length_replicate, List.length_replicate, List.length_replicate⟩
  idx := h
  run _ := (by decide : 1 ≤ 2 ∧ 2 ≤ 65535)
  raw := rawTripleSigned_zero
  request := by cases p <;> rfl
  reading := ⟨1, (scaleSample_zero 1).symm⟩
  scale := one_ne_zero

/-- A step of such a state, as an edge of the graph. -/
theorem exists_step_of_graphState {p q : Phase} {t : State} (k : BitVec 16) (e : Env)
    (hidx : idxFits (graphState p k e) = true) (hstep : step (graphState p k e) = .next t) (hq : t.ph = q) :
    ∃ s t : State, Inv s ∧ s.ph = p ∧ t.ph = q ∧ step s = .next t :=
  ⟨_, t, inv_graphState hidx, rfl, hq, hstep⟩

/-- In CAL_FIN under the invariant the run ends, whatever its means. -/
theorem exists_step_of_calFin {s : State} (h : RunInv s) (hp : s.ph = .calFin) (ht : s.env.turns = []) :
    ∃ t, step s = .next t ∧ t.ph = .idle := by
  obtain ⟨m, hm⟩ := h.exists_calMeans (C := .exact) hp
  have hrun : runningCommand s = some (.calib s.n s.ms) := by simp only [runningCommand, hp]
  rw [step_of_no_turns ht, advance_of_running hrun, exec_calib, calibOf_of_calFin hp]
  cases hz : Carrier.exact.isZero (calX .exact m) with
  | true => exact ⟨_, calibFinish_degenerate hm hz, rfl⟩
  | false => exact ⟨_, calibFinish_calibrated hm hz, rfl⟩

/-- Every transition of the graph is taken from a state under the invariant. -/
theorem exists_step_of_phaseEdge {p q : Phase} (h : phaseEdge p q = true) :
    ∃ s t : State, Inv s ∧ s.ph = p ∧ t.ph = q ∧ step s = .next t := by
  cases p <;> replace h := of_decide_eq_true h
  case idle =>
    rcases h with rfl | rfl | rfl | rfl
    · exact exists_step_of_graphState 0 { Env.none with cmds := [encode .rdacc] } rfl rfl rfl
    · exact exists_step_of_graphState 0 { Env.none with cmds := [encode .rdtemp] } rfl rfl rfl
    · exact exists_step_of_graphState 0 { Env.none with cmds := [encode (.calib 1 0)] } rfl rfl rfl
    · exact exists_step_of_graphState 0 { Env.none with cmds := [0] } rfl rfl rfl
  case accSt =>
    rcases h with rfl | rfl
    · exact exists_step_of_graphState 0 { Env.none with statusAns := [.bytes 1] } rfl rfl rfl
    · exact exists_step_of_graphState 0 { Env.none with statusAns := [.bytes 0] } rfl rfl rfl
  case accFifo =>
    obtain rfl := h
    exact exists_step_of_graphState 0 { Env.none with fifoAns := [.busError] } rfl rfl rfl
  case tmpRd =>
    obtain rfl := h
    exact exists_step_of_graphState 0 { Env.none with tempAns := [.busError] } rfl rfl rfl
  case calSt =>
    rcases h with rfl | rfl | rfl
    · exact exists_step_of_graphState 0 { Env.none with statusAns := [.bytes 1] } rfl rfl rfl
    · exact exists_step_of_graphState 0 { Env.none with statusAns := [.bytes 0] } rfl rfl rfl
    · exact exists_step_of_graphState 0 { Env.none with statusAns := [.busError] } rfl rfl rfl
  case calFifo =>
    rcases h with rfl | rfl
    · exact exists_step_of_graphState 0 { Env.none with fifoAns := [.bytes (Vector.replicate 9 0)] } rfl rfl rfl
    · exact exists_step_of_graphState 0 { Env.none with fifoAns := [.busError] } rfl rfl rfl
  case calWait =>
    rcases h with rfl | rfl
    · exact exists_step_of_graphState 1 { Env.none with delays := 1 } rfl rfl rfl
    · exact exists_step_of_graphState 2 { Env.none with delays := 1 } rfl rfl rfl
  case calFin =>
    obtain rfl := h
    have hinv : Inv (graphState .calFin 2 Env.none) := inv_graphState rfl
    obtain ⟨t, hstep, hidle⟩ := exists_step_of_calFin hinv.toRunInv rfl rfl
    exact ⟨_, t, hinv, rfl, hidle, hstep⟩

/-- Settles O15: the cases of a step take transitions of the graph only, and a state of each phase takes each of
its transitions. -/
theorem phaseGraphIsComplete : Obligations.PhaseGraphIsComplete := by
  refine ⟨fun s t h => ?_, fun p q => exists_step_of_phaseEdge⟩
  have hcase := step_cases h
  rw [takeTurn_snd] at hcase
  rcases hcase with ⟨hreset, rfl⟩ | hcase
  · exact .inr (.inr ⟨hreset, rfl⟩)
  · exact hcase.phase.imp_right .inl

end Sys2Proof.Machine
end

section
/-! The sequencer (10_state.md R36, 30_encoding.md R92): which command a step runs, the steps in which no answer
comes, the words held at the host, and a BusError in each phase that waits for the port. -/
namespace Sys2Proof.Machine

variable {Num : Type} {C : Carrier Num}

/-! ### The running command -/

theorem runningCommand_of_acc {s : State Num} (hp : s.ph = .accSt ∨ s.ph = .accFifo) :
    runningCommand s = some .rdacc := by
  rcases hp with hp | hp <;> simp only [runningCommand, hp]

theorem runningCommand_of_tmpRd {s : State Num} (hp : s.ph = .tmpRd) : runningCommand s = some .rdtemp := by
  simp only [runningCommand, hp]

theorem Phase.isCal_eq_true {p : Phase} :
    p.isCal = true ↔ p = .calSt ∨ p = .calFifo ∨ p = .calWait ∨ p = .calFin := by
  cases p <;> decide

theorem runningCommand_of_isCal {s : State Num} (hp : s.ph.isCal = true) :
    runningCommand s = some (.calib s.n s.ms) := by
  rcases Phase.isCal_eq_true.mp hp with hp | hp | hp | hp <;> simp only [runningCommand, hp]

/-- In a silent turn only CAL_FIN moves (R161). -/
theorem step_of_silent {s : State} {ts : List Turn} (h : s.env.turns = .silent :: ts) :
    step s = if movesAlone s then advance exec (tookTurn ts s) else .next (tookTurn ts s) := by
  unfold step stepWith takeTurn
  rw [h]
  rfl

/-- In a reset turn the step is the hardware reset (70_reset_and_hazards.md R210). -/
theorem step_of_reset {s : State} {ts : List Turn} (h : s.env.turns = .reset :: ts) :
    step s = .next (hardReset .exact (tookTurn ts s)) := by
  unfold step stepWith takeTurn
  rw [h]

/-! ### The obligations: which command a step runs -/

/-- Settles O12: with the turn taken, IDLE takes the word and runs its command. -/
theorem stepRunsDecodedCommand : Obligations.StepRunsDecodedCommand := by
  intro s w ws ts i hp hturn hc hd
  have hp' : (tookTurn ts s).ph = .idle := hp
  have hc' : (tookTurn ts s).env.cmds = w :: ws := hc
  rw [step_of_offers hturn, advance_of_command hp' hc' hd]

/-- Settles O13: PH names the running command; a silent turn moves CAL_FIN only. -/
theorem stepContinuesRunningCommand : Obligations.StepContinuesRunningCommand := by
  intro s ts
  have hrun {i : Instr} (h : runningCommand s = some i) :
      advance exec (tookTurn ts s) = exec i (tookTurn ts s) :=
    advance_of_running (s := tookTurn ts s) h
  refine ⟨fun hturn => ?_, fun hturn => ?_⟩
  · rw [step_of_offers hturn]
    exact ⟨fun hp => hrun (runningCommand_of_acc hp), fun hp => hrun (runningCommand_of_tmpRd hp),
      fun hp => hrun (runningCommand_of_isCal (Phase.isCal_eq_true.mpr hp))⟩
  · rw [step_of_silent hturn]
    constructor
    · intro hp
      have hmoves : movesAlone s = true := decide_eq_true hp
      rw [if_pos hmoves]
      exact hrun (runningCommand_of_isCal (by rw [hp]; rfl))
    · intro hp
      exact if_neg fun hmoves => hp (of_decide_eq_true hmoves)

/-- Settles O23: IDLE enters the command's first phase, which issues its request. -/
theorem bareCommandsStart : Obligations.BareCommandsStart := fun _ hp =>
  ⟨exec_rdacc_of_idle hp, exec_rdtemp_of_idle hp⟩

/-- Settles O31: the range of COUNT decides between the start of the run and InvalidArgument. -/
theorem calibAcceptance : Obligations.CalibAcceptance := by
  intro s c m hp
  constructor
  · intro hpos hdepth
    have hadm : calibAdmissible s.bufDepth c = true :=
      Bool.and_eq_true_iff.mpr ⟨decide_eq_true hpos, decide_eq_true hdepth⟩
    rw [exec_calib_of_idle hp, calibAccept_of_admissible hadm]
    rfl
  · intro hout
    have hbad : (Instr.calib c m).wellFormed s.bufDepth = false := by
      rw [Instr.wellFormed, Bool.and_eq_false_iff, decide_eq_false_iff_not, decide_eq_false_iff_not]
      omega
    rw [exec_of_not_wellFormed hp hbad, raise_invalidArgument_of_idle hp]

/-! ### No answer -/

section NoAnswer

variable {s : State Num}

/-- While no answer has come, each step that waits for the port leaves the state (60_exceptions.md R195). -/
theorem rdaccStatus_nil (h : s.env.statusAns = []) : rdaccStatus C s = .next s := by
  simp only [rdaccStatus, statusStep_nil h]

theorem rdaccBurst_nil (h : s.env.fifoAns = []) : rdaccBurst C s = .next s := by
  simp only [rdaccBurst, burstStep_nil h]

theorem rdtempRead_nil (h : s.env.tempAns = []) : rdtempRead C s = .next s := by
  simp only [rdtempRead, takeTemp_none.mpr h]

theorem calibStatus_nil (h : s.env.statusAns = []) : calibStatus C s = .next s := by
  simp only [calibStatus, statusStep_nil h]

theorem calibBurst_nil (h : s.env.fifoAns = []) : calibBurst C s = .next s := by
  simp only [calibBurst, burstStep_nil h]

end NoAnswer

/-- A step of the machine without turns, in a phase of each command. -/
theorem step_of_acc {s : State} (ht : s.env.turns = []) (hp : s.ph = .accSt ∨ s.ph = .accFifo) :
    step s = exec .rdacc s := by
  rw [step_of_no_turns ht, advance_of_running (runningCommand_of_acc hp)]

theorem step_of_tmpRd {s : State} (ht : s.env.turns = []) (hp : s.ph = .tmpRd) : step s = exec .rdtemp s := by
  rw [step_of_no_turns ht, advance_of_running (runningCommand_of_tmpRd hp)]

theorem step_of_isCal {s : State} (ht : s.env.turns = []) (hp : s.ph.isCal = true) :
    step s = calibOf .exact s.n s.ms s := by
  rw [step_of_no_turns ht, advance_of_running (runningCommand_of_isCal hp), exec_calib]

/-- With no answer to come a step leaves the state as it is (R195). -/
theorem step_of_unanswered {s : State} (ht : s.env.turns = []) (h : unanswered s) : step s = .next s := by
  rcases h with ⟨hp, ha⟩ | ⟨hp, ha⟩ | ⟨hp, ha⟩ | ⟨hp, ha⟩ | ⟨hp, ha⟩ | ⟨hp, ha⟩
  · rw [step_of_acc ht (.inl hp), exec_rdacc_of_accSt hp, rdaccStatus_nil ha]
  · rw [step_of_acc ht (.inr hp), exec_rdacc_of_accFifo hp, rdaccBurst_nil ha]
  · rw [step_of_tmpRd ht hp, exec_rdtemp_of_tmpRd hp, rdtempRead_nil ha]
  · rw [step_of_isCal ht (by rw [hp]; rfl), calibOf_of_calSt hp, calibStatus_nil ha]
  · rw [step_of_isCal ht (by rw [hp]; rfl), calibOf_of_calFifo hp, calibBurst_nil ha]
  · rw [step_of_isCal ht (by rw [hp]; rfl), calibOf_of_calWait hp, calibWait_pending ha]

/-- Settles O16: each step of the run leaves the state, which is still unanswered. -/
theorem unansweredRequestHangs : Obligations.UnansweredRequestHangs := by
  intro s k ht h
  induction k with
  | zero => exact run_zero s
  | succ k ih => rw [run_succ_next k (step_of_unanswered ht h), ih]

/-! ### The words held at the host -/

/-- A status step with its state, if it has one, seen through `f`. -/
def StatusStep.mapState (f : State → State) : StatusStep NumVal → StatusStep NumVal
  | .waiting => .waiting
  | .failed s => .failed (f s)
  | .gated s => .gated (f s)
  | .ready s => .ready (f s)

/-- A burst step with its state, if it has one, seen through `f`. -/
def BurstStep.mapState (f : State → State) : BurstStep NumVal → BurstStep NumVal
  | .waiting => .waiting
  | .failed s => .failed (f s)
  | .sampled s => .sampled (f s)

section Held

variable (ws : List CmdWord) (s : State)

/-- No part of a running command reads or writes the words at the host (20_memory.md R79). -/
theorem statusStep_withCmds :
    statusStep .exact (withCmds ws s) = (statusStep .exact s).mapState (withCmds ws) := by
  cases h : s.env.statusAns with
  | nil => rw [statusStep_nil h, statusStep_nil (s := withCmds ws s) h]; rfl
  | cons a rest =>
    cases a with
    | busError => rw [statusStep_busError h, statusStep_busError (s := withCmds ws s) h]; rfl
    | bytes st =>
      cases hd : dataReady st with
      | false => rw [statusStep_clear h hd, statusStep_clear (s := withCmds ws s) h hd]; rfl
      | true => rw [statusStep_set h hd, statusStep_set (s := withCmds ws s) h hd]; rfl

theorem burstStep_withCmds :
    burstStep .exact (withCmds ws s) = (burstStep .exact s).mapState (withCmds ws) := by
  cases h : s.env.fifoAns with
  | nil => rw [burstStep_nil h, burstStep_nil (s := withCmds ws s) h]; rfl
  | cons a rest =>
    cases a with
    | busError => rw [burstStep_busError h, burstStep_busError (s := withCmds ws s) h]; rfl
    | bytes d => rw [burstStep_bytes h, burstStep_bytes (s := withCmds ws s) h]; rfl

theorem storeAndWait_withCmds : storeAndWait (withCmds ws s) = mapNext (withCmds ws) (storeAndWait s) := by
  by_cases h : s.idx.toNat < s.n.toNat ∧ s.idx.toNat < s.bufDepth
  · rw [storeAndWait_eq h.1 h.2, storeAndWait_eq (s := withCmds ws s) h.1 h.2]
    rfl
  · rw [storeAndWait_fault h, storeAndWait_fault (s := withCmds ws s) h]
    rfl

theorem rdaccStatus_withCmds :
    rdaccStatus .exact (withCmds ws s) = mapNext (withCmds ws) (rdaccStatus .exact s) := by
  unfold rdaccStatus
  rw [statusStep_withCmds]
  cases statusStep .exact s <;> rfl

theorem rdaccBurst_withCmds :
    rdaccBurst .exact (withCmds ws s) = mapNext (withCmds ws) (rdaccBurst .exact s) := by
  unfold rdaccBurst
  rw [burstStep_withCmds]
  cases burstStep .exact s <;> rfl

theorem rdtempRead_withCmds :
    rdtempRead .exact (withCmds ws s) = mapNext (withCmds ws) (rdtempRead .exact s) := by
  cases h : s.env.tempAns with
  | nil => rw [rdtempRead_nil h, rdtempRead_nil (s := withCmds ws s) h]; rfl
  | cons a rest =>
    cases a with
    | busError => rw [rdtempRead_busError h, rdtempRead_busError (s := withCmds ws s) h]; rfl
    | bytes t => rw [rdtempRead_bytes h, rdtempRead_bytes (s := withCmds ws s) h]; rfl

theorem calibStatus_withCmds :
    calibStatus .exact (withCmds ws s) = mapNext (withCmds ws) (calibStatus .exact s) := by
  unfold calibStatus
  rw [statusStep_withCmds]
  cases statusStep .exact s with
  | gated u => exact storeAndWait_withCmds ws u
  | _ => rfl

theorem calibBurst_withCmds :
    calibBurst .exact (withCmds ws s) = mapNext (withCmds ws) (calibBurst .exact s) := by
  unfold calibBurst
  rw [burstStep_withCmds]
  cases burstStep .exact s with
  | sampled u => exact storeAndWait_withCmds ws u
  | _ => rfl

theorem calibWait_withCmds : calibWait (withCmds ws s) = mapNext (withCmds ws) (calibWait s) := by
  cases h : s.env.delays with
  | zero => rw [calibWait_pending h, calibWait_pending (s := withCmds ws s) h]; rfl
  | succ k =>
    by_cases hn : s.idx = s.n
    · rw [calibWait_last h hn, calibWait_last (s := withCmds ws s) h hn]
      rfl
    · rw [calibWait_more h hn, calibWait_more (s := withCmds ws s) h hn]
      rfl

theorem calibFinish_withCmds :
    calibFinish .exact (withCmds ws s) = mapNext (withCmds ws) (calibFinish .exact s) := by
  have hsame : calMeans .exact (withCmds ws s) = calMeans .exact s := rfl
  unfold calibFinish
  rw [hsame]
  cases calMeans .exact s with
  | none => rfl
  | some m => dsimp only; split <;> rfl

/-- Nor does the running command as a whole. -/
theorem exec_withCmds {i : Instr} (h : runningCommand s = some i) :
    exec i (withCmds ws s) = mapNext (withCmds ws) (exec i s) := by
  unfold runningCommand at h
  split at h <;> cases h
  next hp => rw [exec_rdacc_of_accSt hp, ← rdaccStatus_withCmds]; exact exec_rdacc_of_accSt hp
  next hp => rw [exec_rdacc_of_accFifo hp, ← rdaccBurst_withCmds]; exact exec_rdacc_of_accFifo hp
  next hp => rw [exec_rdtemp_of_tmpRd hp, ← rdtempRead_withCmds]; exact exec_rdtemp_of_tmpRd hp
  all_goals rw [exec_calib, exec_calib]
  next hp => rw [calibOf_of_calSt hp, ← calibStatus_withCmds]; exact calibOf_of_calSt hp
  next hp => rw [calibOf_of_calFifo hp, ← calibBurst_withCmds]; exact calibOf_of_calFifo hp
  next hp => rw [calibOf_of_calWait hp, ← calibWait_withCmds]; exact calibOf_of_calWait hp
  next hp => rw [calibOf_of_calFin hp, ← calibFinish_withCmds]; exact calibOf_of_calFin hp

theorem exists_runningCommand {s : State} (hp : s.ph ≠ .idle) : ∃ i, runningCommand s = some i := by
  unfold runningCommand
  split
  · next hidle => exact absurd hidle hp
  all_goals exact ⟨_, rfl⟩

theorem advance_withCmds (hp : s.ph ≠ .idle) :
    advance exec (withCmds ws s) = mapNext (withCmds ws) (advance exec s) := by
  obtain ⟨i, hi⟩ := exists_runningCommand hp
  rw [advance_of_running hi, advance_of_running (s := withCmds ws s) hi, exec_withCmds ws s hi]

theorem hostRead_withCmds (k : Nat) :
    hostRead k (withCmds ws s) = mapNext (withCmds ws) (hostRead k s) := by
  have hreg : hostRegister k (withCmds ws s) = hostRegister k s := by
    rw [hostRegister_eq_hostTable, hostRegister_eq_hostTable]
    rfl
  have hbusy : busy (withCmds ws s) = busy s := rfl
  unfold hostRead
  rw [hreg, hbusy]
  cases hostRegister k s with
  | none => rfl
  | some v => dsimp only; split <;> rfl

theorem hardReset_withCmds : hardReset .exact (withCmds ws s) = withCmds ws (hardReset .exact s) := by
  have henv : abandonRequest s.ph { s.env with cmds := ws } = { abandonRequest s.ph s.env with cmds := ws } := by
    cases s.ph <;> rfl
  unfold hardReset
  exact congrArg (fun e => { resetOf Carrier.exact with
    bufDepth := s.bufDepth, env := e, trace := .hardReset :: s.trace }) henv

end Held

/-- A step outside IDLE, in each kind of turn, leaves the words at the host apart. -/
theorem step_withCmds {s : State} (ws : List CmdWord) (hp : s.ph ≠ .idle) :
    step (withCmds ws s) = mapNext (withCmds ws) (step s) := by
  cases ht : s.env.turns with
  | nil =>
    rw [step_of_no_turns ht, step_of_no_turns (s := withCmds ws s) ht]
    exact advance_withCmds ws s hp
  | cons turn ts =>
    cases turn with
    | ready =>
      rw [step_of_ready ht, step_of_ready (s := withCmds ws s) ht]
      exact advance_withCmds ws (tookTurn ts s) hp
    | silent =>
      have hmoves : movesAlone (withCmds ws s) = movesAlone s := rfl
      rw [step_of_silent ht, step_of_silent (s := withCmds ws s) ht, hmoves]
      split
      · exact advance_withCmds ws (tookTurn ts s) hp
      · rfl
    | hostRead k =>
      rw [step_of_hostRead ht, step_of_hostRead (s := withCmds ws s) ht]
      exact hostRead_withCmds ws (tookTurn ts s) k
    | reset =>
      rw [step_of_reset ht, step_of_reset (s := withCmds ws s) ht]
      exact congrArg Host.Outcome.next (hardReset_withCmds ws (tookTurn ts s))

/-- Settles O14: the step leaves the words apart, and only IDLE takes one. -/
theorem wordHeldWhileBusy : Obligations.WordHeldWhileBusy := fun _ ws hp =>
  ⟨step_withCmds ws hp, fun _ => step_cmds_of_busy hp⟩

/-! ### BusError -/

/-- What a BusError answer leaves of the state, and what it writes, whichever request it answers. -/
theorem busError_effect {s u : State} {op : PortOp} {e : Env} (hreq : s.ph.request s.ms = some (.port op))
    (hu : u = { s with env := e, trace := .answered op .busError :: s.trace })
    (hstep : step s = .next (raise .busError u)) :
    ∃ t op, step s = .next t ∧ t.ph = .idle ∧ t.err = .busError ∧ s.ph.request s.ms = some (.port op) ∧
      t.trace = .completed .busError :: .answered op .busError :: s.trace ∧
      t.scale = s.scale ∧ t.off = s.off ∧ t.raw = s.raw ∧ t.acc = s.acc ∧ t.frame = s.frame ∧
      t.sst = s.sst ∧ t.temp = s.temp ∧ t.traw = s.traw ∧
      (s.ph.isCal = true → t.idx = 0 ∧ t.buf = ⟨[], [], []⟩) := by
  subst hu
  exact ⟨_, op, hstep, rfl, rfl, hreq, rfl, rfl, rfl, rfl, rfl, rfl, rfl, rfl, rfl,
    fun hcal => ⟨if_pos hcal, if_pos hcal⟩⟩

/-- Settles O43: in each of the five phases the command's step raises BusError at the answered state. -/
theorem busErrorEndsTheCommand : Obligations.BusErrorEndsTheCommand := by
  intro s ts hturn hans
  have hrun {i : Instr} (h : runningCommand s = some i) : step s = exec i (tookTurn ts s) :=
    (step_of_offers hturn).trans (advance_of_running (s := tookTurn ts s) h)
  rcases hans with ⟨r, hp | hp, ha⟩ | ⟨r, hp | hp, ha⟩ | ⟨r, hp, ha⟩
  all_goals have hp' := (tookTurn_ph ts s).trans hp
  · have hstep := hrun (runningCommand_of_acc (.inl hp))
    rw [exec_rdacc_of_accSt hp', rdaccStatus_busError (s := tookTurn ts s) ha] at hstep
    exact busError_effect (by rw [hp]; rfl) rfl hstep
  · have hstep := hrun (runningCommand_of_isCal (by rw [hp]; rfl))
    rw [exec_calib, calibOf_of_calSt hp', calibStatus_busError (s := tookTurn ts s) ha] at hstep
    exact busError_effect (by rw [hp]; rfl) rfl hstep
  · have hstep := hrun (runningCommand_of_acc (.inr hp))
    rw [exec_rdacc_of_accFifo hp', rdaccBurst_busError (s := tookTurn ts s) ha] at hstep
    exact busError_effect (by rw [hp]; rfl) rfl hstep
  · have hstep := hrun (runningCommand_of_isCal (by rw [hp]; rfl))
    rw [exec_calib, calibOf_of_calFifo hp', calibBurst_busError (s := tookTurn ts s) ha] at hstep
    exact busError_effect (by rw [hp]; rfl) rfl hstep
  · have hstep := hrun (runningCommand_of_tmpRd hp)
    rw [exec_rdtemp_of_tmpRd hp', rdtempRead_busError (s := tookTurn ts s) ha] at hstep
    exact busError_effect (by rw [hp]; rfl) rfl hstep

end Sys2Proof.Machine
end

section
/-! Reset, the STAT register, the boot and the sensor's addresses (10_state.md R28, R44; 70_reset_and_hazards.md R210
to R220; 20_memory.md R73). -/
namespace Sys2Proof.Machine

/-! ### STAT -/

/-- The fields of STAT: BUSY, ERR, and five zero bits (R28). -/
theorem statFields (e : ErrCode) (b : Bool) :
    (0#5 ++ e.bits ++ BitVec.ofBool b).getLsbD 0 = b ∧
      (0#5 ++ e.bits ++ BitVec.ofBool b).extractLsb' 1 2 = e.bits ∧
      (0#5 ++ e.bits ++ BitVec.ofBool b).extractLsb' 3 5 = 0 := by
  cases e <;> cases b <;> decide

/-- In IDLE after a command without error STAT reads as zero. -/
theorem statByte_eq_zero {s : State} (hp : s.ph = .idle) (he : s.err = .ok) : statByte s = 0 := by
  simp only [statByte, busy, hp, he]
  decide

/-- Settles O4: BUSY is whether PH is not IDLE, and the ERR bits are the code's. -/
theorem statRegisterLayout : Obligations.StatRegisterLayout := by
  intro s
  obtain ⟨hbusy, herr, hhigh⟩ := statFields s.err (busy s)
  rw [statByte, hbusy, herr]
  refine ⟨busy_eq_true, ?_, ?_, ?_, ?_, hhigh⟩ <;> (intro he; rw [he]; rfl)

/-! ### Reset -/

theorem abandonRequest_turns (p : Phase) (e : Env) : (abandonRequest p e).turns = e.turns := by
  cases p <;> rfl

/-- Settles O1: each register as written in the reset state, whose first step waits in IDLE. -/
theorem resetStateValues : Obligations.ResetStateValues :=
  ⟨rfl, rfl, rfl, rfl, rfl, rfl, rfl, by decide, rfl, rfl, rfl, rfl, rfl, rfl, rfl, rfl⟩

/-- Settles O2: in a reset turn the step is the hardware reset, which drops no presented word. -/
theorem hardResetRestoresResetValues : Obligations.HardResetRestoresResetValues := by
  intro s ts hturn
  exact ⟨_, step_of_reset hturn, rfl, rfl, rfl, rfl, rfl, rfl, rfl, rfl, statByte_eq_zero rfl rfl, rfl, rfl, rfl,
    rfl, rfl, rfl, abandonRequest_cmds .., abandonRequest_turns ..⟩

/-- Of the inputs a hardware reset depends on what it leaves of them only. -/
theorem step_of_reset_congr {s : State} {e e' : Env} {ts : List Turn} (he : e.turns = .reset :: ts)
    (he' : e'.turns = .reset :: ts)
    (h : abandonRequest s.ph { e with turns := ts } = abandonRequest s.ph { e' with turns := ts }) :
    step { s with env := e } = step { s with env := e' } := by
  rw [step_of_reset (s := { s with env := e }) he, step_of_reset (s := { s with env := e' }) he']
  exact congrArg (fun e => (.next : State → Outcome) { hardReset .exact s with env := e }) h

/-- Settles O3: the reset drops the first entry of the list that the phase would have taken its answer from. -/
theorem abandonedAnswerIsIgnored : Obligations.AbandonedAnswerIsIgnored := by
  intro s ts hturn
  refine ⟨fun a b rest hp => step_of_reset_congr hturn hturn ?_,
    fun a b rest hp => step_of_reset_congr hturn hturn ?_,
    fun a b rest hp => step_of_reset_congr hturn hturn ?_⟩
  · rcases hp with hp | hp <;> rw [hp] <;> rfl
  · rcases hp with hp | hp <;> rw [hp] <;> rfl
  · rw [hp]
    rfl

/-! ### The boot and the addresses -/

/-- Settles O50: the requests of the three steps, one after the other. -/
theorem bootOrder : Obligations.BootOrder :=
  ⟨fun _ _ => rfl, fun _ _ => rfl⟩

/-- Settles O51: OR acts on each bit. -/
theorem rangeConfigureAccumulates : Obligations.RangeConfigureAccumulates := by
  intro r m1 m2 i
  rw [rangeConfigure, rangeConfigure, BitVec.getLsbD_or, BitVec.getLsbD_or]

/-- Settles O59: the first byte that an operation transmits is the register's address. -/
theorem registerAddressesAreDistinct : Obligations.RegisterAddressesAreDistinct := by
  intro a b hne
  have haddr : Config.sensorAddr a ≠ Config.sensorAddr b := fun h => hne (addrDistinct a b h)
  exact ⟨haddr, fun h => haddr (List.cons.inj h).1, fun _ _ h => haddr (List.cons.inj h).1,
    fun _ _ h => haddr (List.cons.inj h).1⟩

end Sys2Proof.Machine
end

section
/-! The 20-bit field of an axis and its bytes (20_memory.md R69; 40_sample_decode.md R110, R113, R117). -/
namespace Sys2Proof.Machine

/-! ### The field -/

/-- A byte shifted within twenty bits loses nothing. -/
theorem toNat_setWidth_shiftLeft {k : Nat} (b : Byte) (hk : k ≤ 12) :
    (b.setWidth 20 <<< k).toNat = b.toNat <<< k := by
  have hb : b.toNat < 2 ^ 8 := b.isLt
  have hpow : 2 ^ k ≤ 2 ^ 12 := Nat.pow_le_pow_right (by decide) hk
  have hlt : b.toNat * 2 ^ k < 2 ^ 20 :=
    calc b.toNat * 2 ^ k < 2 ^ 8 * 2 ^ 12 := Nat.mul_lt_mul_of_lt_of_le hb hpow (by decide)
      _ = 2 ^ 20 := by norm_num
  rw [BitVec.toNat_shiftLeft, BitVec.toNat_setWidth_of_le (by decide), Nat.shiftLeft_eq, Nat.mod_eq_of_lt hlt]

/-- The field as the OR of shifted numbers (R110). -/
theorem toNat_field20 (b0 b1 b2 : Byte) :
    (field20 b0 b1 b2).toNat = (b0.toNat <<< 12 ||| b1.toNat <<< 4 ||| b2.toNat >>> 4) := by
  rw [field20, BitVec.toNat_or, BitVec.toNat_or, toNat_setWidth_shiftLeft b0 (by decide),
    toNat_setWidth_shiftLeft b1 (by decide), BitVec.toNat_ushiftRight, BitVec.toNat_setWidth_of_le (by decide)]

/-- A byte's top nibble as a number. -/
theorem toNat_topNibble (b : Byte) : (b.extractLsb' 4 4).toNat = b.toNat >>> 4 := by
  have hb : b.toNat < 2 ^ 8 := b.isLt
  rw [BitVec.extractLsb'_toNat, Nat.mod_eq_of_lt]
  rw [Nat.shiftRight_eq_div_pow]
  omega

/-- The field is b0, b1 and the top nibble of b2 side by side (R110). -/
theorem field20_eq_append (b0 b1 b2 : Byte) :
    field20 b0 b1 b2 = (b0 ++ b1 ++ b2.extractLsb' 4 4 : BitVec (8 + 8 + 4)) := by
  apply BitVec.eq_of_toNat_eq
  rw [toNat_field20, BitVec.toNat_append, BitVec.toNat_append, toNat_topNibble, Nat.shiftLeft_or_distrib,
    ← Nat.shiftLeft_add]

/-- The field as a sum (R110). -/
theorem toNat_field20_eq_sum (b0 b1 b2 : Byte) :
    (field20 b0 b1 b2).toNat = b0.toNat * 4096 + b1.toNat * 16 + b2.toNat / 16 := by
  have hnibble : b2.toNat >>> 4 < 2 ^ 4 := toNat_topNibble b2 ▸ (b2.extractLsb' 4 4).isLt
  rw [field20_eq_append, BitVec.toNat_append, BitVec.toNat_append, toNat_topNibble,
    ← Nat.shiftLeft_add_eq_or_of_lt b1.isLt, ← Nat.shiftLeft_add_eq_or_of_lt hnibble, Nat.shiftLeft_eq,
    Nat.shiftLeft_eq, Nat.shiftRight_eq_div_pow]
  omega

/-- Settles O17: the OR is the definition in numbers, the other two forms follow from the concatenation. -/
theorem field20FormsAgree : Obligations.Field20FormsAgree := fun b0 b1 b2 =>
  ⟨toNat_field20_eq_sum b0 b1 b2, toNat_field20 b0 b1 b2, field20_eq_append b0 b1 b2⟩

/-! ### What the decode loses -/

/-- The three parts of a field, as the bytes that encode20 makes of it with padding `p`. -/
def bytesOf (raw : BitVec 20) (p : BitVec 4) : Byte × Byte × Byte :=
  (raw.extractLsb' 12 8, raw.extractLsb' 4 8, raw.extractLsb' 0 4 ++ p)

theorem encode20_eq_bytesOf (v : Int) (p : BitVec 4) : encode20 v p = bytesOf (BitVec.ofInt 20 v) p := rfl

/-- A field is decoded from its own bytes, whatever their padding. -/
theorem field20_bytesOf (raw : BitVec 20) (p : BitVec 4) :
    field20 (bytesOf raw p).1 (bytesOf raw p).2.1 (bytesOf raw p).2.2 = raw := by
  have hhigh : raw.extractLsb' 12 8 ++ raw.extractLsb' 4 8 = raw.extractLsb' 4 16 :=
    BitVec.extractLsb'_append_extractLsb'_eq_extractLsb' (by rfl)
  have hall : raw.extractLsb' 4 16 ++ raw.extractLsb' 0 4 = raw.extractLsb' 0 20 :=
    BitVec.extractLsb'_append_extractLsb'_eq_extractLsb' (by rfl)
  rw [field20_eq_append, bytesOf, BitVec.extractLsb'_append_eq_left, hhigh, hall, BitVec.extractLsb'_eq_self]

/-- Two byte triples have the same field exactly when they agree but for the padding nibble (R113). -/
theorem field20_eq_iff {b0 b1 b2 c0 c1 c2 : Byte} :
    field20 b0 b1 b2 = field20 c0 c1 c2 ↔
      b0 = c0 ∧ b1 = c1 ∧ b2.extractLsb' 4 4 = c2.extractLsb' 4 4 := by
  rw [field20_eq_append, field20_eq_append, bitVec_append_inj, bitVec_append_inj, and_assoc]

theorem sext20_injective {a b : BitVec 20} (h : sext20 a = sext20 b) : a = b := by
  rw [sext20_eq_toInt, sext20_eq_toInt] at h
  exact BitVec.eq_of_toInt_eq h

/-- A signed 20-bit value is read back from its pattern (R112). -/
theorem sext20_ofInt {v : Int} (hlo : -524288 ≤ v) (hhi : v ≤ 524287) : sext20 (BitVec.ofInt 20 v) = v := by
  rw [sext20_eq_toInt, BitVec.toInt_ofInt]
  exact Int.bmod_eq_of_le (by omega) (by omega)

/-- The pattern of a signed reading is the field. -/
theorem ofInt_sext20 (raw : BitVec 20) : BitVec.ofInt 20 (sext20 raw) = raw := by
  rw [sext20_eq_toInt, BitVec.ofInt_toInt]

/-- Settles O19: fields and signed values correspond by `BitVec.ofInt`, fields and bytes by their parts. -/
theorem decodeLosesOnlyPadding : Obligations.DecodeLosesOnlyPadding :=
  ⟨fun _ _ => sext20_injective, fun _ hlo hhi => ⟨_, sext20_ofInt hlo hhi⟩,
    fun raw => ⟨_, _, _, field20_bytesOf raw 0⟩, fun _ _ _ _ _ _ => field20_eq_iff⟩

/-- A byte is its top nibble above its padding. -/
theorem append_eq_byte_iff {top pad : BitVec 4} {b : Byte} :
    top ++ pad = b ↔ top = b.extractLsb' 4 4 ∧ pad = b.extractLsb' 0 4 := by
  have hb : b.extractLsb' 4 4 ++ b.extractLsb' 0 4 = b :=
    (BitVec.extractLsb'_append_extractLsb'_eq_extractLsb' (by rfl)).trans BitVec.extractLsb'_eq_self
  rw [← bitVec_append_inj, hb]

/-- Settles O21: re-encoding keeps the field, so it gives the bytes back exactly when it keeps the padding. -/
theorem encode20RoundTrip : Obligations.Encode20RoundTrip := by
  constructor
  · intro v p hlo hhi
    rw [encode20_eq_bytesOf, field20_bytesOf, sext20_ofInt hlo hhi]
  · intro b0 b1 b2 p
    rw [encode20_eq_bytesOf, ofInt_sext20]
    obtain ⟨h0, h1, h2⟩ := field20_eq_iff.mp (field20_bytesOf (field20 b0 b1 b2) p)
    rw [bytesOf, BitVec.extractLsb'_append_eq_left] at h2
    rw [bytesOf, Prod.mk.injEq, Prod.mk.injEq, append_eq_byte_iff]
    exact ⟨fun ⟨_, _, _, hpad⟩ => hpad, fun hpad => ⟨h0, h1, h2, hpad⟩⟩

/-! ### The padding of a burst -/

/-- Bursts that differ in padding only decode to the same sample (R69). -/
theorem decodeFrame_eq_of_samePayload {d e : Frame} (h : samePayload d e) : decodeFrame d = decodeFrame e := by
  obtain ⟨h0, h1, h2, h3, h4, h5, h6, h7, h8⟩ := h
  have hx := field20_eq_iff.mpr ⟨h0, h1, h2⟩
  have hy := field20_eq_iff.mpr ⟨h3, h4, h5⟩
  have hz := field20_eq_iff.mpr ⟨h6, h7, h8⟩
  rw [decodeFrame, decodeFrame, frameFields, frameFields, hx, hy, hz]

/-- The state with this burst, and then `rest`, to come from the port. -/
def withBurst (d : Frame) (rest : List (PortAnswer Frame)) (s : State) : State :=
  { s with env := { s.env with fifoAns := .bytes d :: rest } }

/-- The burst step of RDACC on nine bytes (R120). -/
theorem exec_rdacc_of_burst {s : State} {d : Frame} {rest : List (PortAnswer Frame)} (hp : s.ph = .accFifo)
    (ha : s.env.fifoAns = .bytes d :: rest) :
    exec .rdacc s = .next (complete (writeSample .exact d (tookBurst (.bytes d) rest s))) := by
  rw [exec_rdacc_of_accFifo hp, rdaccBurst_bytes ha]

/-- The burst step of CALIB on nine bytes, its sample stored (R156). -/
theorem calibOf_of_burst {Num : Type} {C : Carrier Num} {s : State Num} {d : Frame}
    {rest : List (PortAnswer Frame)} {c : BitVec 16} {m : BitVec 32} (hp : s.ph = .calFifo)
    (ha : s.env.fifoAns = .bytes d :: rest) (hs : canStore s) :
    calibOf C c m s =
      .next (enter .calWait (storedSample (writeSample C d (tookBurst (.bytes d) rest s)))) := by
  obtain ⟨-, hrun, hdepth⟩ := hs
  rw [calibOf_of_calFifo hp, calibBurst_bytes ha]
  exact storeAndWait_eq hrun (Nat.lt_of_lt_of_le hrun hdepth)

/-- Settles O22: the two steps write the same sample and different frames. -/
theorem paddingTouchesOnlyFrame : Obligations.PaddingTouchesOnlyFrame := by
  intro s d e rest hpay hans
  have hsample := decodeFrame_eq_of_samePayload hpay
  constructor
  · intro hp
    refine ⟨_, _, exec_rdacc_of_burst hp hans, exec_rdacc_of_burst (s := withBurst e rest s) hp rfl, rfl, ?_⟩
    simp only [complete, writeSample, hsample]
    rfl
  · intro c m hp hs
    refine ⟨_, _, calibOf_of_burst hp hans hs, calibOf_of_burst (s := withBurst e rest s) hp rfl hs, rfl, ?_⟩
    simp only [enter, storedSample, writeSample, hsample]
    rfl

end Sys2Proof.Machine
end

section
/-! The frames of the three commands (40_sample_decode.md R121, 41_temperature.md R144, 42_calibration.md R163): which
phases write each register, and what a BusError keeps. -/
namespace Sys2Proof.Machine

variable {Num : Type} {C : Carrier Num} {s t : State Num}

/-! ### The phases that write each register and take each input -/

theorem StepCase.bufDepth_eq (h : StepCase C s t) : t.bufDepth = s.bufDepth := by
  cases h <;> rfl

theorem StepCase.operands_eq (h : StepCase C s t) (hp : s.ph ≠ .idle) : t.n = s.n ∧ t.ms = s.ms := by
  cases h with
  | acceptCalib _ _ _ _ hidle => exact absurd hidle hp
  | _ => exact ⟨rfl, rfl⟩

theorem StepCase.scale_eq (h : StepCase C s t) (hp : s.ph ≠ .calFin) : t.scale = s.scale ∧ t.off = s.off :=
  h.scale.resolve_right fun ⟨_, hfin, _⟩ => hp hfin

theorem StepCase.temp_eq (h : StepCase C s t) (hp : s.ph ≠ .tmpRd) :
    t.temp = s.temp ∧ t.traw = s.traw ∧ t.env.tempAns = s.env.tempAns := by
  cases h with
  | tempBusError _ htmp | tempRead _ _ htmp => exact absurd htmp hp
  | _ => exact ⟨rfl, rfl, rfl⟩

theorem StepCase.status_eq (h : StepCase C s t) (hacc : s.ph ≠ .accSt) (hcal : s.ph ≠ .calSt) :
    t.sst = s.sst ∧ t.env.statusAns = s.env.statusAns := by
  cases h with
  | statusBusError _ hst => exact absurd hst (not_or.mpr ⟨hacc, hcal⟩)
  | accGated _ _ hst | accReady _ _ hst => exact absurd hst hacc
  | calGated _ _ hst | calReady _ _ hst => exact absurd hst hcal
  | _ => exact ⟨rfl, rfl⟩

theorem StepCase.frame_eq (h : StepCase C s t) (hacc : s.ph ≠ .accFifo) (hcal : s.ph ≠ .calFifo) :
    t.frame = s.frame ∧ t.env.fifoAns = s.env.fifoAns := by
  cases h with
  | burstBusError _ hfifo => exact absurd hfifo (not_or.mpr ⟨hacc, hcal⟩)
  | accSampled _ _ hfifo => exact absurd hfifo hacc
  | calSampled _ _ hfifo => exact absurd hfifo hcal
  | _ => exact ⟨rfl, rfl⟩

theorem StepCase.reading_eq (h : StepCase C s t)
    (hp : s.ph ≠ .accSt ∧ s.ph ≠ .accFifo ∧ s.ph ≠ .calSt ∧ s.ph ≠ .calFifo) :
    t.raw = s.raw ∧ t.acc = s.acc := by
  obtain ⟨haccSt, haccFifo, hcalSt, hcalFifo⟩ := hp
  cases h with
  | accGated _ _ hph => exact absurd hph haccSt
  | accSampled _ _ hph => exact absurd hph haccFifo
  | calGated _ _ hph => exact absurd hph hcalSt
  | calSampled _ _ hph => exact absurd hph hcalFifo
  | _ => exact ⟨rfl, rfl⟩

theorem StepCase.delays_eq (h : StepCase C s t) (hp : s.ph ≠ .calWait) : t.env.delays = s.env.delays := by
  cases h with
  | calLoop _ hwait | calEnd _ hwait => exact absurd hwait hp
  | _ => rfl

/-- A command other than CALIB leaves the buffers and IDX. -/
theorem StepCase.buffers_eq (h : StepCase C s t) (hidle : s.ph ≠ .idle) (hcal : s.ph.isCal = false) :
    t.buf = s.buf ∧ t.idx = s.idx := by
  have hkept : ¬ s.ph.isCal = true := Bool.eq_false_iff.mp hcal
  cases h with
  | acceptCalib _ _ _ _ hp | refuseWord _ _ hp => exact absurd hp hidle
  | calGated _ _ hp | calSampled _ _ hp | calibrated _ hp => exact absurd (by rw [hp]; rfl) hkept
  | statusBusError | burstBusError | tempBusError | degenerate => exact ⟨if_neg hkept, if_neg hkept⟩
  | _ => exact ⟨rfl, rfl⟩

/-- A step that brings ERR to BusError writes no reading and no temperature. -/
theorem StepCase.kept_of_busError (h : StepCase C s t) (ht : t.err = .busError) (hs : s.err ≠ .busError) :
    t.raw = s.raw ∧ t.acc = s.acc ∧ t.frame = s.frame ∧ t.traw = s.traw ∧ t.temp = s.temp := by
  cases h with
  | accGated | accSampled | tempRead => cases ht
  | calGated | calSampled => exact absurd ht hs
  | _ => exact ⟨rfl, rfl, rfl, rfl, rfl⟩

/-- A step that does not bring PH to IDLE leaves ERR. -/
theorem StepCase.err_eq (h : StepCase C s t) (ht : t.ph ≠ .idle) : t.err = s.err := by
  rcases h.completes_or_continues with ⟨_, _, _, _, hidle, _⟩ | ⟨_, herr, _⟩
  · exact absurd hidle ht
  · exact herr

/-! ### The phases in which a command has a step -/

theorem rdaccOf_phase (h : rdaccOf C s = .next t) : s.ph = .idle ∨ s.ph = .accSt ∨ s.ph = .accFifo := by
  unfold rdaccOf at h
  split at h
  · next hp => exact .inl hp
  · next hp => exact .inr (.inl hp)
  · next hp => exact .inr (.inr hp)
  all_goals cases h

theorem rdtempOf_phase (h : rdtempOf C s = .next t) : s.ph = .idle ∨ s.ph = .tmpRd := by
  unfold rdtempOf at h
  split at h
  · next hp => exact .inl hp
  · next hp => exact .inr hp
  all_goals cases h

theorem calibOf_isCal {c : BitVec 16} {m : BitVec 32} (hidle : s.ph ≠ .idle) (h : calibOf C c m s = .next t) :
    s.ph.isCal = true := by
  unfold calibOf at h
  split at h
  · next hp => exact absurd hp hidle
  case h_2 hp | h_3 hp | h_4 hp | h_5 hp => rw [hp]; rfl
  all_goals cases h

/-- The delay's step leaves the buffers, IDX and ERR (R158). -/
theorem calibWait_kept (h : calibWait s = .next t) : t.buf = s.buf ∧ t.idx = s.idx ∧ t.err = s.err := by
  cases hd : s.env.delays with
  | zero =>
    rw [calibWait_pending hd] at h
    cases h
    exact ⟨rfl, rfl, rfl⟩
  | succ k =>
    by_cases hn : s.idx = s.n
    · rw [calibWait_last hd hn] at h
      cases h
      exact ⟨rfl, rfl, rfl⟩
    · rw [calibWait_more hd hn] at h
      cases h
      exact ⟨rfl, rfl, rfl⟩

/-! ### The obligations -/

/-- Settles O27: acceptance enters the first phase; in the other two the frame of each register. -/
theorem rdaccFrame : Obligations.RdaccFrame := by
  intro s t h
  by_cases hidle : s.ph = .idle
  · rw [exec_rdacc_of_idle hidle] at h
    cases h
    exact ⟨rfl, rfl, rfl, rfl, rfl, rfl, rfl, rfl, rfl, rfl, rfl, rfl, fun _ => rfl, fun _ => rfl,
      fun _ => ⟨rfl, rfl, rfl⟩, fun _ _ => ⟨rfl, rfl, rfl⟩⟩
  · have hcase : StepCase .exact s t := rdaccOf_cases hidle h
    have hp : s.ph = .accSt ∨ s.ph = .accFifo := (rdaccOf_phase h).resolve_left hidle
    have hcal : s.ph.isCal = false := by rcases hp with hp | hp <;> rw [hp] <;> rfl
    have hother {p : Phase} (hst : p ≠ .accSt) (hfifo : p ≠ .accFifo) : s.ph ≠ p := by
      rintro rfl
      exact hp.elim hst hfifo
    obtain ⟨hscale, hoff⟩ := hcase.scale_eq (hother nofun nofun)
    obtain ⟨htemp, htraw, hans⟩ := hcase.temp_eq (hother nofun nofun)
    obtain ⟨hbuf, hidx⟩ := hcase.buffers_eq hidle hcal
    obtain ⟨hn, hms⟩ := hcase.operands_eq hidle
    refine ⟨hscale, hoff, htemp, htraw, hbuf, hidx, hn, hms, hcase.bufDepth_eq, hcase.cmds_of_busy hidle, hans,
      hcase.delays_eq (hother nofun nofun), fun hst => (hcase.status_eq hst (hother nofun nofun)).1,
      fun hfifo => (hcase.frame_eq hfifo (hother nofun nofun)).1, fun hp => absurd hp hidle, fun ht hs => ?_⟩
    obtain ⟨hraw, hacc, hframe, -⟩ := hcase.kept_of_busError ht hs
    exact ⟨hraw, hacc, hframe⟩

/-- Settles O30: acceptance enters TMP_RD, which leaves every register of the other commands. -/
theorem rdtempFrame : Obligations.RdtempFrame := by
  intro s t h
  by_cases hidle : s.ph = .idle
  · rw [exec_rdtemp_of_idle hidle] at h
    cases h
    exact ⟨rfl, rfl, rfl, rfl, rfl, rfl, rfl, rfl, rfl, rfl, rfl, rfl, rfl, rfl, rfl, fun _ => ⟨rfl, rfl, rfl⟩,
      fun _ _ => ⟨rfl, rfl⟩⟩
  · have hcase : StepCase .exact s t := rdtempOf_cases hidle h
    have hp : s.ph = .tmpRd := (rdtempOf_phase h).resolve_left hidle
    have hother {p : Phase} (htmp : p ≠ .tmpRd) : s.ph ≠ p := fun h => htmp (h.symm.trans hp)
    obtain ⟨hscale, hoff⟩ := hcase.scale_eq (hother nofun)
    obtain ⟨hraw, hacc⟩ := hcase.reading_eq ⟨hother nofun, hother nofun, hother nofun, hother nofun⟩
    obtain ⟨hsst, hstatus⟩ := hcase.status_eq (hother nofun) (hother nofun)
    obtain ⟨hframe, hburst⟩ := hcase.frame_eq (hother nofun) (hother nofun)
    obtain ⟨hbuf, hidx⟩ := hcase.buffers_eq hidle (by rw [hp]; rfl)
    obtain ⟨hn, hms⟩ := hcase.operands_eq hidle
    refine ⟨hscale, hoff, hacc, hraw, hsst, hframe, hbuf, hidx, hn, hms, hcase.bufDepth_eq,
      hcase.cmds_of_busy hidle, hstatus, hburst, hcase.delays_eq (hother nofun), fun hp => absurd hp hidle,
      fun ht hs => ?_⟩
    obtain ⟨-, -, -, htraw, htemp⟩ := hcase.kept_of_busError ht hs
    exact ⟨htraw, htemp⟩

/-- What the acceptance of CALIB writes: the run's registers, or ERR (R151). -/
theorem calibAccept_cases {c : BitVec 16} {m : BitVec 32} (h : calibAccept c m s = .next t) :
    t = enter .calSt (discardBuffers (latchOperands c m s)) ∨ t = raise .invalidArgument s := by
  unfold calibAccept at h
  split at h <;> cases h
  · exact .inl rfl
  · exact .inr rfl

/-- Settles O39: acceptance writes the run's registers or ERR; in the phases of a run the frame of each
register. -/
theorem calibFrame : Obligations.CalibFrame := by
  intro s t c m h
  by_cases hidle : s.ph = .idle
  · rw [exec_calib_of_idle hidle] at h
    have hwait : s.ph ≠ .calWait := by rw [hidle]; nofun
    rcases calibAccept_cases h with rfl | rfl
    · exact ⟨rfl, rfl, rfl, rfl, rfl, fun hp => absurd hidle hp, fun _ => ⟨rfl, rfl⟩, fun _ => rfl, fun _ => rfl,
        fun _ _ => ⟨rfl, rfl⟩, fun hp => absurd hp hwait, fun _ => rfl⟩
    · exact ⟨rfl, rfl, rfl, rfl, rfl, fun hp => absurd hidle hp, fun _ => ⟨rfl, rfl⟩, fun _ => rfl, fun _ => rfl,
        fun _ _ => ⟨rfl, rfl⟩, fun hp => absurd hp hwait, fun hp => absurd rfl hp⟩
  · have hcase : StepCase .exact s t := calibOf_cases hidle h
    have hcal : s.ph.isCal = true := calibOf_isCal hidle h
    have hother {p : Phase} (hp : p.isCal = false) : s.ph ≠ p := by
      rintro rfl
      exact Bool.eq_false_iff.mp hp hcal
    obtain ⟨htemp, htraw, hans⟩ := hcase.temp_eq (hother rfl)
    exact ⟨htemp, htraw, hcase.bufDepth_eq, hcase.cmds_of_busy hidle, hans, hcase.operands_eq, hcase.scale_eq,
      fun hst => (hcase.status_eq (hother rfl) hst).1, fun hfifo => (hcase.frame_eq (hother rfl) hfifo).1,
      fun hst hfifo => hcase.reading_eq ⟨hother rfl, hother rfl, hst, hfifo⟩,
      fun hp => calibWait_kept ((calibOf_of_calWait hp).symm.trans h), hcase.err_eq⟩

end Sys2Proof.Machine
end

section
/-! Any numeric carrier (00_scope.md R12): the default one, what the commands compute over another, and that no
command divides where the zero test holds. -/
namespace Sys2Proof.Machine

variable {Num : Type} {C : Carrier Num} {s : State Num}

/-! ### What the commands compute over a carrier -/

theorem rdaccOf_of_accSt (hp : s.ph = .accSt) : rdaccOf C s = rdaccStatus C s := by
  simp only [rdaccOf, hp]

theorem rdaccOf_of_accFifo (hp : s.ph = .accFifo) : rdaccOf C s = rdaccBurst C s := by
  simp only [rdaccOf, hp]

theorem rdtempOf_of_tmpRd (hp : s.ph = .tmpRd) : rdtempOf C s = rdtempRead C s := by
  simp only [rdtempOf, hp]

/-- Settles O52: each operation of the default carrier is the rationals', and the machine is defined over it. -/
theorem machineIsTheDefaultCarrier : Obligations.MachineIsTheDefaultCarrier :=
  ⟨fun k q a b => ⟨exact_num k, exact_dec q, exact_add a b, exact_sub a b, exact_mul a b, exact_div a b,
    exact_isZero q⟩, execOf_exact, stepOf_exact, reset_eq.symm⟩

/-- Settles O53: the three steps on their answers, whose writes are the operations of the carrier. -/
theorem carrierReadings : Obligations.CarrierReadings := by
  intro Num C s
  refine ⟨fun st rest hp hans hbit => ?_, ?_, fun t0 t1 rest hp hans => ?_⟩
  · exact (rdaccOf_of_accSt hp).trans (rdaccStatus_clear hans hbit)
  · rintro d rest sx sy sz hp hans rfl rfl rfl
    exact (rdaccOf_of_accFifo hp).trans (rdaccBurst_bytes hans)
  · have hexec : execOf C .rdtemp s = rdtempRead C s := rdtempOf_of_tmpRd hp
    rw [hexec, rdtempRead_bytes hans, ← tempRaw_eq_append, ← toNat_tempRaw]
    rfl

/-- Settles O54: the sample of each step is stored by appending it. -/
theorem carrierSamples : Obligations.CarrierSamples := by
  intro Num C s c m hs
  constructor
  · intro st rest hp hans hbit
    have hs' : canStore (writeGated C (latchStatus st (tookStatus (.bytes st) rest s))) := hs
    rw [execOf_calib, calibOf_of_calSt hp, calibStatus_clear hans hbit, storeAndWait_of_canStore hs']
    rfl
  · rintro d rest x y z hp hans rfl rfl rfl
    have hs' : canStore (writeSample C d (tookBurst (.bytes d) rest s)) := hs
    rw [execOf_calib, calibOf_of_calFifo hp, calibBurst_bytes hans, storeAndWait_of_canStore hs']
    rfl

/-! ### The mean -/

/-- Entries above the run, and an IDX above N, do not count: the mean is that of the first N entries (R159). -/
theorem calMean_take {l : List Num} {idx n : BitVec 16} (hidx : n.toNat ≤ idx.toNat) (hlen : n.toNat ≤ l.length) :
    calMean C l idx n = calMean C (l.take n.toNat) n n := by
  have hread : readEntries l idx.toNat n.toNat = some (l.take n.toNat) := if_pos ⟨hidx, hlen⟩
  have hread' : readEntries (l.take n.toNat) n.toNat n.toNat = some (l.take n.toNat) := by
    rw [readEntries, if_pos ⟨Nat.le_refl _, (List.length_take_of_le hlen).ge⟩, List.take_take, Nat.min_self]
  rw [calMean, calMean, hread, hread']

/-- A run of no samples has no mean (log 9). -/
theorem calMean_of_count_zero {l : List Num} {idx n : BitVec 16} (h : n.toNat = 0) : calMean C l idx n = none := by
  have hread : readEntries l idx.toNat n.toNat = some [] := by
    rw [h, readEntries, if_pos ⟨Nat.zero_le _, Nat.zero_le _⟩, List.take_zero]
  rw [calMean, hread]
  rfl

/-- Nor has a run of which an entry has no value (10_state.md R33; log 9). -/
theorem calMean_of_unwritten {l : List Num} {idx n : BitVec 16} (h : idx.toNat < n.toNat ∨ l.length < n.toNat) :
    calMean C l idx n = none := by
  have hread : readEntries l idx.toNat n.toNat = none := if_neg (by omega)
  rw [calMean, hread]
  rfl

/-- Settles O36: the mean of the first N entries, and the two ways to have none. -/
theorem meanIsSumOverCount : Obligations.MeanIsSumOverCount := by
  intro l idx n
  constructor
  · intro hpos hidx hlen
    rw [calMean_take hidx hlen]
    exact calMean_exact (List.length_take_of_le hlen) hpos
  · rintro (hzero | hunwritten)
    · exact calMean_of_count_zero hzero
    · exact calMean_of_unwritten hunwritten

/-! ### Division where the zero test holds -/

/-- The carrier with another division. -/
def withDiv (C : Carrier Num) (div' : Num → Num → Num) : Carrier Num := { C with div := div' }

section Div

variable {div' : Num → Num → Num} (h : ∀ a b, C.isZero b = false → div' a b = C.div a b)
include h

/-- The divisors of the temperature, of the means, of the denominator and of the new SCALE do not pass the zero
test (R142, R159, R160, R161). -/
theorem tempC_withDiv (v : BitVec 16) : tempC (withDiv C div') v = tempC C v :=
  congrArg (C.add _) (h _ _ C.slope_nonzero)

theorem calMean_withDiv (l : List Num) (idx n : BitVec 16) :
    calMean (withDiv C div') l idx n = calMean C l idx n := by
  by_cases hzero : n.toNat = 0
  · rw [calMean_of_count_zero hzero, calMean_of_count_zero hzero]
  · have hn : C.isZero (C.num (n.toNat : Int)) = false := C.num_nonzero _ (by exact_mod_cast hzero)
    exact congrArg (fun f => ((readEntries l idx.toNat n.toNat).bind (sumEntries C)).map f)
      (funext fun sum => h sum _ hn)

theorem calMeans_withDiv (s : State Num) : calMeans (withDiv C div') s = calMeans C s := by
  unfold calMeans
  rw [calMean_withDiv h, calMean_withDiv h, calMean_withDiv h]

theorem calX_withDiv (m : Triple Num) : calX (withDiv C div') m = calX C m :=
  h _ _ (C.num_nonzero 2 (by decide))

theorem commitCalibration_withDiv {m : Triple Num} (s : State Num) (hx : C.isZero (calX C m) = false) :
    commitCalibration (withDiv C div') m s = commitCalibration C m s := by
  have hscale : div' (C.num 1) (calX C m) = C.div (C.num 1) (calX C m) := h _ _ hx
  unfold commitCalibration
  rw [calX_withDiv h]
  exact congrArg (fun q => { s with off := ⟨m.x, m.y, biasCorrected C m⟩, scale := q }) hscale

theorem rdtempRead_withDiv (s : State Num) : rdtempRead (withDiv C div') s = rdtempRead C s := by
  have hwrite (t : TempBytes) (u : State Num) : writeTemp (withDiv C div') t u = writeTemp C t u := by
    rw [writeTemp, tempC_withDiv h, ← writeTemp]
  simp only [rdtempRead, hwrite]

theorem calibFinish_withDiv (s : State Num) : calibFinish (withDiv C div') s = calibFinish C s := by
  cases hm : calMeans C s with
  | none => simp only [calibFinish, calMeans_withDiv h, hm]
  | some m =>
    have hm' : calMeans (withDiv C div') s = some m := (calMeans_withDiv h s).trans hm
    have hx' : (withDiv C div').isZero (calX (withDiv C div') m) = C.isZero (calX C m) :=
      congrArg C.isZero (calX_withDiv h m)
    cases hx : C.isZero (calX C m) with
    | true => rw [calibFinish_degenerate hm hx, calibFinish_degenerate hm' (hx'.trans hx)]
    | false =>
      rw [calibFinish_calibrated hm hx, calibFinish_calibrated hm' (hx'.trans hx), commitCalibration_withDiv h s hx]

theorem rdtempOf_withDiv (s : State Num) : rdtempOf (withDiv C div') s = rdtempOf C s := by
  unfold rdtempOf
  rw [rdtempRead_withDiv h]

theorem calibOf_withDiv (c : BitVec 16) (m : BitVec 32) (s : State Num) :
    calibOf (withDiv C div') c m s = calibOf C c m s := by
  have hstatus : calibStatus (withDiv C div') s = calibStatus C s := rfl
  have hburst : calibBurst (withDiv C div') s = calibBurst C s := rfl
  unfold calibOf
  rw [hstatus, hburst, calibFinish_withDiv h]

end Div

/-- Settles O57: RDACC does not divide, the other two commands divide only where the zero test does not hold. -/
theorem noDivisionByZero : Obligations.NoDivisionByZero := by
  intro Num C div' h i s
  cases i with
  | rdacc => rfl
  | rdtemp => exact rdtempOf_withDiv h s
  | calib c m => exact calibOf_withDiv h c m s

end Sys2Proof.Machine
end

section
/-! Whole commands (40_sample_decode.md R121, 42_calibration.md R163): runs from the acceptance of a word to the
completion, as functions of the port's answers. -/
namespace Sys2Proof.Machine

/-! ### Short runs -/

theorem run_one {s t : State} (h : step s = .next t) : Sys2Proof.core.run 1 s = .next t :=
  run_succ_next 0 h

theorem run_two {s t u : State} (h1 : step s = .next t) (h2 : step t = .next u) :
    Sys2Proof.core.run 2 s = .next u :=
  (run_succ_next 1 h1).trans (run_one h2)

theorem run_three {s t u v : State} (h1 : step s = .next t) (h2 : step t = .next u) (h3 : step u = .next v) :
    Sys2Proof.core.run 3 s = .next v :=
  (run_succ_next 2 h1).trans (run_two h2 h3)

/-! ### RDACC -/

/-- Without turns the step is the command's own, in each of its phases. -/
theorem step_of_accSt {s : State} (ht : s.env.turns = []) (hp : s.ph = .accSt) : step s = rdaccStatus .exact s := by
  rw [step_of_acc ht (.inl hp), exec_rdacc_of_accSt hp]

theorem step_of_accFifo {s : State} (ht : s.env.turns = []) (hp : s.ph = .accFifo) :
    step s = rdaccBurst .exact s := by
  rw [step_of_acc ht (.inr hp), exec_rdacc_of_accFifo hp]

/-- The state of ACC_ST after IDLE has taken the RDACC word. -/
def rdaccStarted (ws : List CmdWord) (s : State) : State :=
  { s with
    ph := .accSt
    env := { s.env with cmds := ws }
    trace := .requested (.port (.readByte .status)) :: .accepted 0x0100000000000000#64 :: s.trace }

/-- The state of ACC_FIFO after the port has answered a ready status byte. -/
def rdaccReady (st : Byte) (r1 : List (PortAnswer Byte)) (ws : List CmdWord) (s : State) : State :=
  { s with
    sst := st
    ph := .accFifo
    env := { s.env with cmds := ws, statusAns := r1 }
    trace := .requested (.port (.readBytes .fifoData 9)) :: .answered (.readByte .status) (.bytes [st]) ::
      (rdaccStarted ws s).trace }

theorem step_of_rdacc_word {s : State} {ws : List CmdWord} (hp : s.ph = .idle) (ht : s.env.turns = [])
    (hc : s.env.cmds = 0x0100000000000000#64 :: ws) : step s = .next (rdaccStarted ws s) := by
  have hd : decode 0x0100000000000000#64 = .command .rdacc := by decide
  have hp' : (tookCommand 0x0100000000000000#64 ws s).ph = .idle := hp
  rw [step_of_no_turns ht, advance_of_command hp hc hd, exec_rdacc_of_idle hp']
  rfl

/-- Settles O26: acceptance, the status step, and after a ready status byte the burst step. -/
theorem rdaccWholeCommand : Obligations.RdaccWholeCommand := by
  intro s ws r1 r2 hp ht hc
  have hstart := step_of_rdacc_word hp ht hc
  have hstatus := step_of_accSt (s := rdaccStarted ws s) ht rfl
  have hready (st : Byte) (ha : s.env.statusAns = .bytes st :: r1) (hst : st.getLsbD 0 = true) :
      step (rdaccStarted ws s) = .next (rdaccReady st r1 ws s) :=
    hstatus.trans (rdaccStatus_set (s := rdaccStarted ws s) ha hst)
  have hburst (st : Byte) := step_of_accFifo (s := rdaccReady st r1 ws s) ht rfl
  refine ⟨fun ha => ?_, fun st ha hst => ?_, fun st ha hst hb => ?_, fun st d ha hst hb => ?_⟩
  · refine ⟨_, run_two hstart (hstatus.trans (rdaccStatus_busError ha)), rfl, ?_⟩
    rw [raise_of_not_isCal _ rfl]
    simp only [tookStatus, rdaccStarted, hp]
  · refine ⟨_, run_two hstart (hstatus.trans (rdaccStatus_clear ha hst)), rfl, ?_⟩
    simp only [complete, writeGated, latchStatus, tookStatus, rdaccStarted, hp]
    rfl
  · have hbus := rdaccBurst_busError (C := .exact) (s := rdaccReady st r1 ws s) hb
    refine ⟨_, run_three hstart (hready st ha hst) ((hburst st).trans hbus), rfl, ?_⟩
    rw [raise_of_not_isCal _ rfl]
    simp only [tookBurst, rdaccReady, hp]
  · have hbytes := rdaccBurst_bytes (C := .exact) (s := rdaccReady st r1 ws s) hb
    refine ⟨_, run_three hstart (hready st ha hst) ((hburst st).trans hbytes), rfl, ?_⟩
    simp only [complete, writeSample, tookBurst, rdaccReady, hp]
    rfl

end Sys2Proof.Machine
end

section
/-! A whole calibration run (42_calibration.md R163): after any number of samples without error the machine is between
two samples with the values stored so far; from there the run goes on, ends, or is aborted. -/
namespace Sys2Proof.Machine

/-! ### Between two samples -/

/-- The phase after the delay of a sample: the next sample, or the final step (R158). -/
def afterDelay (s : State) : Phase := if s.idx = s.n then .calFin else .calSt

/-- The status reads that entering a phase has issued. -/
def statusReads : Phase → Nat
  | .calSt => 1
  | _ => 0

/-- What is known of the state `u` in which a run of `c` samples, started at `s`, is between two samples: `as` are the
samples so far, `ws`, `r1`, `r2` and `j` the inputs still to come. -/
structure BetweenSamples (s : State) (c : BitVec 16) (ws : List CmdWord) (as : List CalibAnswer)
    (r1 : List (PortAnswer Byte)) (r2 : List (PortAnswer Frame)) (j : Nat) (u : State) : Prop where
  scale : u.scale = s.scale
  off : u.off = s.off
  temp : u.temp = s.temp
  traw : u.traw = s.traw
  count : u.n = c
  depth : u.bufDepth = s.bufDepth
  env : u.env = { s.env with cmds := ws, statusAns := r1, fifoAns := r2, delays := j }
  phase : u.ph = afterDelay u
  idx : u.idx.toNat = as.length
  buf : u.buf = ⟨as.map fun a => (a.value s.scale).x, as.map fun a => (a.value s.scale).y,
    as.map fun a => (a.value s.scale).z⟩
  last : ∀ a, as.getLast? = some a → u.acc = a.value s.scale ∧ .bytes u.sst = a.status
  ports : portRequests u.trace = portRequests s.trace + requestsOf as + statusReads u.ph
  waits : delayRequests u.trace = delayRequests s.trace + as.length

section Between

variable {s u : State} {c : BitVec 16} {ws : List CmdWord} {as : List CalibAnswer} {r1 : List (PortAnswer Byte)}
  {r2 : List (PortAnswer Frame)} {j : Nat}

theorem BetweenSamples.buffersWf (h : BetweenSamples s c ws as r1 r2 j u) : buffersWf u.buf u.idx = true := by
  rw [buffersWf_iff, h.buf, h.idx]
  exact ⟨List.length_map _, List.length_map _, List.length_map _⟩

/-- Before the last sample the next status read is outstanding. -/
theorem BetweenSamples.calSt (h : BetweenSamples s c ws as r1 r2 j u) (hlt : as.length < c.toNat) :
    u.ph = .calSt := by
  have hne : u.idx ≠ u.n := by
    intro heq
    rw [← h.idx, heq, h.count] at hlt
    exact Nat.lt_irrefl _ hlt
  rw [h.phase, afterDelay, if_neg hne]

/-- After the last sample the final step is to come. -/
theorem BetweenSamples.calFin (h : BetweenSamples s c ws as r1 r2 j u) (hlen : as.length = c.toNat) :
    u.idx = u.n ∧ u.ph = .calFin := by
  have heq : u.idx = u.n := BitVec.eq_of_toNat_eq (by rw [h.idx, hlen, h.count])
  exact ⟨heq, by rw [h.phase, afterDelay, if_pos heq]⟩

theorem BetweenSamples.canStore (h : BetweenSamples s c ws as r1 r2 j u) (hlt : as.length < c.toNat)
    (hdepth : c.toNat ≤ s.bufDepth) : canStore u := by
  refine ⟨h.buffersWf, ?_, ?_⟩
  · rw [h.idx, h.count]
    exact hlt
  · rw [h.count, h.depth]
    exact hdepth

theorem BetweenSamples.turns (h : BetweenSamples s c ws as r1 r2 j u) (ht : s.env.turns = []) : u.env.turns = [] := by
  rw [h.env]
  exact ht

end Between

/-! ### One sample -/

/-- Without turns the step is the command's own, in each of its phases. -/
theorem step_of_calSt {s : State} (ht : s.env.turns = []) (hp : s.ph = .calSt) : step s = calibStatus .exact s := by
  rw [step_of_isCal ht (by rw [hp]; rfl), calibOf_of_calSt hp]

theorem step_of_calFifo {s : State} (ht : s.env.turns = []) (hp : s.ph = .calFifo) :
    step s = calibBurst .exact s := by
  rw [step_of_isCal ht (by rw [hp]; rfl), calibOf_of_calFifo hp]

/-- A completed delay (R158). -/
theorem step_of_delay {s : State} {j : Nat} (ht : s.env.turns = []) (hp : s.ph = .calWait)
    (hd : s.env.delays = j + 1) : step s = .next (enter (afterDelay s) (tookDelay j s)) := by
  rw [step_of_isCal ht (by rw [hp]; rfl), calibOf_of_calWait hp]
  by_cases hn : s.idx = s.n
  · rw [calibWait_last hd hn, afterDelay, if_pos hn]
  · rw [calibWait_more hd hn, afterDelay, if_neg hn]

/-- The state that awaits a sample's burst, its status byte having been ready. -/
def burstAwaited (st : Byte) (r1 : List (PortAnswer Byte)) (u : State) : State :=
  enter .calFifo (latchStatus st (tookStatus (.bytes st) r1 u))

theorem step_of_ready_sample {u : State} {st : Byte} {r1 : List (PortAnswer Byte)} (ht : u.env.turns = [])
    (hp : u.ph = .calSt) (hst : u.env.statusAns = .bytes st :: r1) (hready : st.getLsbD 0 = true) :
    step u = .next (burstAwaited st r1 u) :=
  (step_of_calSt ht hp).trans (calibStatus_set hst hready)

/-- The state in which a sample has been read, `r1` and `r2` being the answers after it, and not yet stored. -/
def readSample (r1 : List (PortAnswer Byte)) (r2 : List (PortAnswer Frame)) (u : State) : CalibAnswer → State
  | .gated st => writeGated .exact (latchStatus st (tookStatus (.bytes st) r1 u))
  | .sampled st d =>
    writeSample .exact d (tookBurst (.bytes d) r2 (burstAwaited st r1 u))

/-- Reading a sample takes as many steps as it makes requests, and the last of them stores it. -/
theorem run_readSample {u : State} {a : CalibAnswer} {r1 : List (PortAnswer Byte)} {r2 : List (PortAnswer Frame)}
    (ht : u.env.turns = []) (hp : u.ph = .calSt) (hs : canStore u) (hfits : a.fits = true)
    (hst : u.env.statusAns = a.status :: r1) (hb : u.env.fifoAns = a.bursts ++ r2) :
    Sys2Proof.core.run a.requests u = .next (enter .calWait (storedSample (readSample r1 r2 u a))) := by
  obtain ⟨-, hrun, hdepth⟩ := hs
  have hroom := Nat.lt_of_lt_of_le hrun hdepth
  cases a with
  | gated st =>
    have hclear : dataReady st = false := Bool.eq_false_of_not_eq_true' hfits
    refine run_one ?_
    rw [step_of_calSt ht hp, calibStatus_clear hst hclear]
    exact storeAndWait_eq hrun hroom
  | sampled st d =>
    refine run_two (step_of_ready_sample ht hp hst hfits) ?_
    rw [step_of_calFifo (s := burstAwaited st r1 u) ht rfl, calibBurst_bytes (s := burstAwaited st r1 u) hb]
    exact storeAndWait_eq hrun hroom

/-- What reading the sample `a` in `u` does to the state, up to the store: `r1` and `r2` are the answers left. -/
structure SampleRead (u : State) (a : CalibAnswer) (r1 : List (PortAnswer Byte)) (r2 : List (PortAnswer Frame))
    (x : State) : Prop where
  scale : x.scale = u.scale
  off : x.off = u.off
  temp : x.temp = u.temp
  traw : x.traw = u.traw
  count : x.n = u.n
  depth : x.bufDepth = u.bufDepth
  idx : x.idx = u.idx
  buf : x.buf = u.buf
  env : x.env = { u.env with statusAns := r1, fifoAns := r2 }
  acc : x.acc = a.value u.scale
  sst : .bytes x.sst = a.status
  ports : portRequests x.trace + 1 = portRequests u.trace + a.requests
  waits : delayRequests x.trace = delayRequests u.trace

theorem sampleRead_readSample {u : State} {a : CalibAnswer} {r1 : List (PortAnswer Byte)}
    {r2 : List (PortAnswer Frame)} (hb : u.env.fifoAns = a.bursts ++ r2) :
    SampleRead u a r1 r2 (readSample r1 r2 u a) := by
  cases a with
  | gated st =>
    have hb' : r2 = u.env.fifoAns := hb.symm
    subst hb'
    constructor <;> rfl
  | sampled st d => constructor <;> rfl

/-! ### The run of samples -/

theorem requestsOf_append_singleton (as : List CalibAnswer) (a : CalibAnswer) :
    requestsOf (as ++ [a]) = requestsOf as + a.requests := by
  rw [requestsOf, List.map_append, List.sum_append, ← requestsOf, List.map_singleton, List.sum_singleton]

/-- After a delay the only request that can be issued is the next status read. -/
theorem portRequests_afterDelay (s : State) (ms : BitVec 32) (es : List Event) :
    portRequests (issueEvents (afterDelay s) ms ++ es) = portRequests es + statusReads (afterDelay s) := by
  unfold afterDelay
  split <;> rfl

theorem delayRequests_afterDelay (s : State) (ms : BitVec 32) (es : List Event) :
    delayRequests (issueEvents (afterDelay s) ms ++ es) = delayRequests es := by
  unfold afterDelay
  split <;> rfl

/-- The state after the delay that follows the store of the sample read in `x`. -/
def sampleDone (j : Nat) (x : State) : State :=
  enter (afterDelay (enter .calWait (storedSample x))) (tookDelay j (enter .calWait (storedSample x)))

section Sample

variable {s u x : State} {c : BitVec 16} {ws : List CmdWord} {as : List CalibAnswer} {a : CalibAnswer}
  {r1 : List (PortAnswer Byte)} {r2 : List (PortAnswer Frame)} {j : Nat}

/-- A stored sample is the next of the run. -/
theorem BetweenSamples.append (h : BetweenSamples s c ws as (a.status :: r1) (a.bursts ++ r2) (j + 1) u)
    (hlt : as.length < c.toNat) (hx : SampleRead u a r1 r2 x) :
    BetweenSamples s c ws (as ++ [a]) r1 r2 j (sampleDone j x) := by
  have hwf := h.buffersWf
  have hp := h.calSt hlt
  have hcount : x.n = c := hx.count.trans h.count
  have hroom : x.idx.toNat < x.n.toNat := by rw [hx.idx, hcount, h.idx]; exact hlt
  have hstored : (storedSample x).buf = ⟨x.buf.x ++ [x.acc.x], x.buf.y ++ [x.acc.y], x.buf.z ++ [x.acc.z]⟩ :=
    congrArg State.buf (storedSample_of_buffersWf (by rw [hx.idx, hx.buf]; exact hwf))
  constructor
  case scale => simp only [sampleDone, enter_scale, tookDelay_scale, storedSample_scale, hx.scale, h.scale]
  case off => simp only [sampleDone, enter_off, tookDelay_off, storedSample_off, hx.off, h.off]
  case temp => simp only [sampleDone, enter_temp, tookDelay_temp, storedSample_temp, hx.temp, h.temp]
  case traw => simp only [sampleDone, enter_traw, tookDelay_traw, storedSample_traw, hx.traw, h.traw]
  case count => simp only [sampleDone, enter_n, tookDelay_n, storedSample_n, hcount]
  case depth => simp only [sampleDone, enter_bufDepth, tookDelay_bufDepth, storedSample_bufDepth, hx.depth, h.depth]
  case env =>
    rw [sampleDone, enter_env, tookDelay_env, enter_env, storedSample_env, hx.env, h.env]
  case phase => rfl
  case idx =>
    have hsucc : (sampleDone j x).idx.toNat = x.idx.toNat + 1 := idx_succ_toNat hroom
    rw [hsucc, hx.idx, h.idx, List.length_append, List.length_singleton]
  case buf =>
    have hdone : (sampleDone j x).buf = (storedSample x).buf := rfl
    rw [hdone, hstored, hx.acc, hx.buf, h.buf, h.scale]
    simp only [List.map_append, List.map_singleton]
  case last =>
    intro b hlast
    obtain rfl : a = b := by simpa using hlast
    constructor
    · simp only [sampleDone, enter_acc, tookDelay_acc, storedSample_acc, hx.acc, h.scale]
    · simp only [sampleDone, enter_sst, tookDelay_sst, storedSample_sst, hx.sst]
  case ports =>
    have hbefore := h.ports
    have hread := hx.ports
    have hreads : statusReads u.ph = 1 := by rw [hp]; rfl
    have hdone : portRequests (sampleDone j x).trace = portRequests x.trace + statusReads (sampleDone j x).ph :=
      portRequests_afterDelay _ _ _
    rw [hdone, requestsOf_append_singleton]
    omega
  case waits =>
    have hdone : delayRequests (sampleDone j x).trace = delayRequests x.trace + 1 := delayRequests_afterDelay _ _ _
    rw [hdone, hx.waits, h.waits, List.length_append, List.length_singleton, Nat.add_assoc]

/-- One more sample is read, stored and waited for. -/
theorem BetweenSamples.run_sample (h : BetweenSamples s c ws as (a.status :: r1) (a.bursts ++ r2) (j + 1) u)
    (ht : s.env.turns = []) (hlt : as.length < c.toNat) (hdepth : c.toNat ≤ s.bufDepth) (hfits : a.fits = true) :
    ∃ v : State, Sys2Proof.core.run (a.requests + 1) u = .next v ∧
      BetweenSamples s c ws (as ++ [a]) r1 r2 j v := by
  have hst : u.env.statusAns = a.status :: r1 := by rw [h.env]
  have hb : u.env.fifoAns = a.bursts ++ r2 := by rw [h.env]
  have hread := run_readSample (h.turns ht) (h.calSt hlt) (h.canStore hlt hdepth) hfits hst hb
  have hx : SampleRead u a r1 r2 (readSample r1 r2 u a) := sampleRead_readSample hb
  have hwait : step (enter .calWait (storedSample (readSample r1 r2 u a))) =
      .next (sampleDone j (readSample r1 r2 u a)) := by
    refine step_of_delay ?_ rfl ?_
    · rw [enter_env, storedSample_env, hx.env]
      exact h.turns ht
    · rw [enter_env, storedSample_env, hx.env, h.env]
  exact ⟨_, (run_add _ _ hread).trans (run_one hwait), h.append hlt hx⟩

end Sample

/-- The state in which the first status read of a run is outstanding. -/
def calibStarted (c : BitVec 16) (m : BitVec 32) (ws : List CmdWord) (s : State) : State :=
  enter .calSt (discardBuffers (latchOperands c m (tookCommand (encode (.calib c m)) ws s)))

section Start

variable {s : State} {c : BitVec 16} {m : BitVec 32} {ws : List CmdWord} {as : List CalibAnswer}
  {r1 : List (PortAnswer Byte)} {r2 : List (PortAnswer Frame)} {j : Nat}

/-- The acceptance of a run's word (R151). -/
theorem CalibStart.step_eq (h : CalibStart s c m ws as r1 r2 j) : step s = .next (calibStarted c m ws s) := by
  have hd : decode (encode (.calib c m)) = .command (.calib c m) := (decodeExactlyInvertsEncode _ _).mpr rfl
  have hp : (tookCommand (encode (.calib c m)) ws s).ph = .idle := h.idle
  have hadm : calibAdmissible (tookCommand (encode (.calib c m)) ws s).bufDepth c = true :=
    Bool.and_eq_true_iff.mpr ⟨decide_eq_true h.count.1, decide_eq_true h.count.2⟩
  rw [step_of_no_turns h.turns, advance_of_command h.idle h.cmds hd, exec_calib_of_idle hp,
    calibAccept_of_admissible hadm]
  rfl

/-- Before any sample the machine is between samples. -/
theorem CalibStart.betweenSamples (h : CalibStart s c m ws [] r1 r2 j) :
    BetweenSamples s c ws [] r1 r2 j (calibStarted c m ws s) where
  scale := rfl
  off := rfl
  temp := rfl
  traw := rfl
  count := rfl
  depth := rfl
  env := by
    have hst : r1 = s.env.statusAns := h.statuses.symm
    have hb : r2 = s.env.fifoAns := h.bursts.symm
    have hd : j = s.env.delays := by rw [h.delays, List.length_nil, Nat.zero_add]
    rw [hst, hb, hd]
    rfl
  phase := by
    have hne : (0 : BitVec 16) ≠ c := by
      rintro rfl
      exact absurd h.count.1 (by decide)
    exact (if_neg hne).symm
  idx := rfl
  buf := rfl
  last _ hlast := by cases hlast
  ports := rfl
  waits := rfl

/-- The last sample's answers are the next ones after the samples before it. -/
theorem CalibStart.of_append_singleton {a : CalibAnswer} (h : CalibStart s c m ws (as ++ [a]) r1 r2 j) :
    CalibStart s c m ws as (a.status :: r1) (a.bursts ++ r2) (j + 1) ∧ a.fits = true := by
  have hfits := h.fits
  have hst := h.statuses
  have hb := h.bursts
  have hd := h.delays
  simp only [List.map_append, List.map_singleton, List.append_assoc, List.singleton_append] at hst
  simp only [List.flatMap_append, List.flatMap_singleton, List.append_assoc] at hb
  simp only [List.length_append, List.length_singleton] at hd
  exact ⟨⟨h.idle, h.turns, h.cmds, h.count, fun b hmem => hfits b (List.mem_append_left _ hmem), hst, hb,
    by rw [hd]; omega⟩, hfits a (List.mem_append_right _ (List.mem_singleton.mpr rfl))⟩

/-- From acceptance the machine comes between samples after any number of them that the run has room for. -/
theorem CalibStart.exists_run (h : CalibStart s c m ws as r1 r2 j) (hlen : as.length ≤ c.toNat) :
    ∃ u : State, Sys2Proof.core.run (1 + requestsOf as + as.length) s = .next u ∧
      BetweenSamples s c ws as r1 r2 j u := by
  induction as using List.reverseRecOn generalizing r1 r2 j with
  | nil => exact ⟨_, run_one h.step_eq, h.betweenSamples⟩
  | append_singleton as a ih =>
    obtain ⟨hinit, hfits⟩ := h.of_append_singleton
    rw [List.length_append, List.length_singleton] at hlen
    obtain ⟨u, hrun, hu⟩ := ih hinit (by omega)
    obtain ⟨v, hsample, hv⟩ := hu.run_sample h.turns (by omega) h.count.2 hfits
    refine ⟨v, ?_, hv⟩
    have hsteps : 1 + requestsOf (as ++ [a]) + (as ++ [a]).length =
        1 + requestsOf as + as.length + (a.requests + 1) := by
      rw [requestsOf_append_singleton, List.length_append, List.length_singleton]
      omega
    rw [hsteps, run_add _ _ hrun, hsample]

end Start

/-! ### The obligations -/

/-- After the last sample the buffers' means are those of the samples, and the final step takes them (R161). -/
theorem BetweenSamples.step_of_calFin {s u : State} {c : BitVec 16} {ws : List CmdWord} {as : List CalibAnswer}
    {r1 : List (PortAnswer Byte)} {r2 : List (PortAnswer Frame)} {j : Nat}
    (h : BetweenSamples s c ws as r1 r2 j u) (ht : s.env.turns = []) (hlen : as.length = c.toNat)
    (hpos : 1 ≤ c.toNat) :
    (runX s.scale as = 0 → step u = .next { u with
      idx := 0, buf := ⟨[], [], []⟩, err := .calibrationError, ph := .idle
      trace := .completed .calibrationError :: u.trace }) ∧
    (runX s.scale as ≠ 0 → step u = .next { u with
      off := ⟨runMean s.scale as Triple.x, runMean s.scale as Triple.y, runMean s.scale as Triple.z - 10⟩
      scale := 1 / runX s.scale as
      idx := 0, buf := ⟨[], [], []⟩, err := .ok, ph := .idle, trace := .completed .ok :: u.trace }) := by
  obtain ⟨hidx, hp⟩ := h.calFin hlen
  have hx : runMean s.scale as Triple.x = u.buf.x.sum / (u.n.toNat : NumVal) := by
    rw [h.buf, h.count, ← hlen]; rfl
  have hy : runMean s.scale as Triple.y = u.buf.y.sum / (u.n.toNat : NumVal) := by
    rw [h.buf, h.count, ← hlen]; rfl
  have hz : runMean s.scale as Triple.z = u.buf.z.sum / (u.n.toNat : NumVal) := by
    rw [h.buf, h.count, ← hlen]; rfl
  rw [step_of_isCal (h.turns ht) (by rw [hp]; rfl), ← exec_calib]
  exact calibFinalStep u u.n u.ms _ _ _ _ hp h.buffersWf hidx (h.count.symm ▸ hpos) hx hy hz rfl

/-- Settles O40: after all samples the final step ends the run, by its denominator. -/
theorem calibWholeRun : Obligations.CalibWholeRun := by
  intro s c m ws as r1 r2 j h hlen
  obtain ⟨u, hrun, hu⟩ := h.exists_run hlen.le
  obtain ⟨hzero, hnonzero⟩ := hu.step_of_calFin h.turns hlen h.count.1
  have hports : portRequests u.trace = portRequests s.trace + requestsOf as := by
    rw [hu.ports, (hu.calFin hlen).2]; rfl
  by_cases hx : runX s.scale as = 0
  · exact ⟨_, (run_add _ _ hrun).trans (run_one (hzero hx)), fun _ => ⟨rfl, hu.scale, hu.off⟩,
      fun hne => absurd hx hne, rfl, rfl, rfl, hu.temp, hu.traw, hu.last, hu.env, hports, hu.waits⟩
  · exact ⟨_, (run_add _ _ hrun).trans (run_one (hnonzero hx)), fun heq => absurd heq hx,
      fun _ => ⟨rfl, rfl, rfl⟩, rfl, rfl, rfl, hu.temp, hu.traw, hu.last, hu.env, hports, hu.waits⟩

/-- Settles O41: between two samples the status answer, or after a ready status byte the burst answer, is the first
BusError, which ends the run. -/
theorem calibAbortedRun : Obligations.CalibAbortedRun := by
  intro s c m ws as r1 r2 j hlt
  constructor
  · intro h
    obtain ⟨u, hrun, hu⟩ := h.exists_run hlt.le
    have hp := hu.calSt hlt
    have hcal : (tookStatus .busError r1 u).ph.isCal = true := by rw [tookStatus_ph, hp]; rfl
    have hans : u.env.statusAns = .busError :: r1 := by rw [hu.env]
    have hstep := (step_of_calSt (hu.turns h.turns) hp).trans (calibStatus_busError hans)
    rw [raise_of_isCal _ hcal] at hstep
    have hports : portRequests u.trace = portRequests s.trace + requestsOf as + 1 := by rw [hu.ports, hp]; rfl
    refine ⟨_, (run_add _ _ hrun).trans (run_one hstep), rfl, hu.scale, hu.off, rfl, rfl, rfl, hu.temp, hu.traw, ?_,
      hports, hu.waits⟩
    simp only [tookStatus, hu.env]
  · intro st hready h
    obtain ⟨u, hrun, hu⟩ := h.exists_run hlt.le
    have hp := hu.calSt hlt
    have hut := hu.turns h.turns
    have hans : u.env.statusAns = .bytes st :: r1 := by rw [hu.env]
    have hburst : (burstAwaited st r1 u).env.fifoAns = .busError :: r2 := congrArg Env.fifoAns hu.env
    have hstep := (step_of_calFifo (s := burstAwaited st r1 u) hut rfl).trans (calibBurst_busError hburst)
    rw [raise_of_isCal _ rfl] at hstep
    have hports : portRequests u.trace + 1 = portRequests s.trace + requestsOf as + 2 := by rw [hu.ports, hp]; rfl
    refine ⟨_, (run_add _ _ hrun).trans (run_two (step_of_ready_sample hut hp hans hready) hstep), rfl, hu.scale,
      hu.off, rfl, rfl, rfl, hu.temp, hu.traw, rfl, ?_, hports, hu.waits⟩
    simp only [tookBurst, burstAwaited, enter, latchStatus, tookStatus, hu.env]

end Sys2Proof.Machine
end
